-- ==== Sys2Proof/Word.lean ====
section
/-!
DEFINITION. The widths of N64CSUM's values (00_scope.md R9, R11, R14): every value is an unsigned number, and all
arithmetic is modulo 2^32.
-/
namespace Sys2Proof

/-- A register value, a command word, a window word (00_scope.md R9, R11). Bit 0 is the least significant (R13). -/
abbrev Word := BitVec 32

/-- One byte of BUF (20_memory.md R46). -/
abbrev Byte := BitVec 8

end Sys2Proof
end

