-- ==== Sys2Proof/Config.lean ====
section
/-!
DEFINITION. What a build of the block fixes (the OPEN parameters of the spec), the constants the source fixes, and the
free values: constants with no body, of which nothing can be proved, so that a statement holds whatever they are.
-/
namespace Sys2Proof

/-! The source's constants (00_scope.md R8). -/

/-- SEED: the initial value of all six accumulators. -/
def Config.seed : Word := 0xF8CA4DDC#32

/-- WIN_BASE: the first byte of the checksum window. -/
def Config.winBase : Nat := 0x1000

/-- WIN_SIZE: the bytes of the window. -/
def Config.winSize : Nat := 0x100000

/-- WIN_WORDS: the 32-bit words of the window. -/
def Config.winWords : Nat := 0x40000

/-- MIN_CSUM_LEN: the least length that CHECKSUM accepts. -/
def Config.minCsumLen : Nat := 0x101000

/-- ROT_MASK: turns a word into its rotate amount. -/
def Config.rotMask : Word := 0x1F#32

/-- HDR_CSUM1: the header offset of checksum1. -/
def Config.hdrCsum1 : Word := 0x10#32

/-- HDR_CSUM2: the header offset of checksum2. -/
def Config.hdrCsum2 : Word := 0x14#32

/-! The OPEN parameters (00_scope.md R10; 20_memory.md R43, R46). -/

/-- How far BUF_CAP lies above its least value. OPEN (00_scope.md R10). -/
opaque Config.bufCapAbove : Fin (0xFFFFFFFF - 0x101000 + 1)

/-- BUF_CAP, the capacity of BUF in bytes: 0x101000 ≤ BUF_CAP ≤ 0xFFFFFFFF and nothing else is known (00_scope.md R10). -/
def Config.bufCap : Nat := Config.bufCapAbove.val + 0x101000

/-- READ_FAIL as the list of the BUF addresses at which it holds. OPEN (00_scope.md R10; 92_eei_decisions.md D13). -/
opaque Config.readFail : List Nat

/-- REG_BASE, where the platform places REG. OPEN (20_memory.md R43). -/
opaque Config.regBase : Nat

/-- BUF_BASE, where the platform places BUF. OPEN (20_memory.md R46). -/
opaque Config.bufBase : Nat

/-- The parameters a build gives the block (00_scope.md R10). They are carried in State, and no step changes them: a
statement for every state is one for every build (notes/assumptions/8.md). -/
structure Build where
  /-- BUF_CAP. -/
  bufCap : Nat
  /-- READ_FAIL: the addresses at which it holds. -/
  readFail : List Nat
  deriving DecidableEq, Repr

/-- READ_FAIL(a) (00_scope.md R10). -/
def Build.fails (b : Build) (a : Nat) : Bool := b.readFail.contains a

/-- The bound that 00_scope.md R10 sets on BUF_CAP. -/
def Build.wf (b : Build) : Bool := decide (0x101000 ≤ b.bufCap) && decide (b.bufCap ≤ 0xFFFFFFFF)

/-- The build of the machine at hand, all of it open. -/
def Config.build : Build := { bufCap := Config.bufCap, readFail := Config.readFail }

/-! Free values. A draw has a number; two draws with different numbers, or two places of one draw, are independent. -/

/-- A register value that the spec leaves open: draw number, place within the draw. -/
opaque Config.freeWord : (draw place : Nat) → Word

/-- A byte of BUF that the spec leaves open: draw number, address. -/
opaque Config.freeByte : (draw address : Nat) → Byte

/-- How many HOST transactions fall between an accept and its completion: finite, unbounded and open
(70_reset_and_hazards.md R155; 10_state.md R31). -/
opaque Config.freeLatency : (draw : Nat) → Nat

/-- What HOST's variable x holds before anything was read into it: HOST's own affair (30_encoding.md R80). -/
opaque Config.freeHostVar : (x : Nat) → Word

end Sys2Proof
end

