-- ==== Sys2Proof/Machine/State.lean ====
section
/-!
DEFINITION. The state of N64CSUM (10_state.md R20), the reasons a step can stop, the bus transactions of HOST
(30_encoding.md R80), and the state after power-on (10_state.md R41).
-/
namespace Sys2Proof.Machine

/-- The ordering tag, a closed type of three values (00_scope.md R18). -/
inductive OrderTag where
  | undetermined
  | native
  | u16LittleEndian
  deriving DecidableEq, Repr

/-- The values STATUS.ERR takes; 6..15 are never produced (60_exceptions.md R123). -/
inductive ErrCode where
  /-- 0 NONE -/
  | noError
  /-- 1 UNKNOWN_ORDERING -/
  | unknownOrdering
  /-- 2 ODD_LENGTH -/
  | oddLength
  /-- 3 NOT_LONG_ENOUGH -/
  | notLongEnough
  /-- 4 READ_ERROR -/
  | readError
  /-- 5 ILLEGAL_COMMAND -/
  | illegalCommand
  deriving DecidableEq, Repr

/-- The width of a HOST access to REG (20_memory.md R44, R55). -/
inductive Width where
  | w8
  | w16
  | w32
  | w64
  deriving DecidableEq, Repr

/-- The value of a HOST register write: a number, or HOST's variable x (30_encoding.md R80). -/
inductive WordVal where
  | imm (v : Word)
  | var (x : Nat)
  deriving DecidableEq, Repr

/-- The value of a HOST byte write: a number, or the byte of HOST's variable x that big-endian order puts at place k, as
`patch` writes it: k = 0 is bits 31:24 (30_encoding.md R81; 20_memory.md R58). -/
inductive ByteVal where
  | imm (v : Byte)
  | var (x : Nat) (k : Fin 4)
  deriving DecidableEq, Repr

/-- What reaches the block from outside: HOST's operations (30_encoding.md R80) and the reset input
(70_reset_and_hazards.md R141). -/
inductive Event where
  /-- `wr REG, v`: a register write at a byte offset of REG. -/
  | wr (off : Word) (width : Width) (v : WordVal)
  /-- `rd REG -> x`: a register read into HOST's variable x. -/
  | rd (off : Word) (width : Width) (x : Nat)
  /-- `wrb a, v`: a byte write to BUF. -/
  | wrb (a : Word) (v : ByteVal)
  /-- `rdb a -> x`: a byte read of BUF into HOST's variable x. -/
  | rdb (a : Word) (x : Nat)
  /-- `wait`: read STATUS until bit 0 is 0. Each step of it is one read. -/
  | wait
  /-- The reset input is asserted. -/
  | reset
  deriving DecidableEq, Repr

/-- BUF as (address, byte) pairs, addresses strictly rising. A byte that nothing has written is not listed: it holds a free
value, not one of the model's (70_reset_and_hazards.md R142; notes/assumptions/3.md). -/
abbrev Memory := List Host.Cell

/-- HOST's variables as (number, value) pairs, numbers strictly rising. -/
abbrev Vars := List (Nat × Word)

/-- The accumulator file `acc[1]`..`acc[6]`: six registers (10_state.md R34). -/
structure Acc where
  t1 : Word
  t2 : Word
  t3 : Word
  t4 : Word
  t5 : Word
  t6 : Word
  deriving DecidableEq, Repr

/-- The machine. -/
structure State where
  /-- STATUS.BUSY (10_state.md R25). -/
  busy : Bool
  /-- STATUS.LOST (10_state.md R26). -/
  lost : Bool
  /-- STATUS.ERR (10_state.md R27). -/
  err : ErrCode
  /-- STATUS.ORDER, latched (10_state.md R28, R38). -/
  order : OrderTag
  /-- LEN (10_state.md R29). -/
  len : Word
  /-- CSUM1 (10_state.md R32). -/
  csum1 : Word
  /-- CSUM2 (10_state.md R32). -/
  csum2 : Word
  /-- CMDL, the latched command word (10_state.md R35). -/
  cmdl : Word
  /-- The accumulators t1..t6 (10_state.md R34). -/
  acc : Acc
  /-- WIDX, the window word index (10_state.md R36). -/
  widx : BitVec 18
  /-- BUF: the bytes that have been written since BUF last became unspecified (20_memory.md R46). -/
  buf : Memory
  /-- FAULT, the model-only mark of a HOST protocol violation (10_state.md R40). -/
  fault : Bool
  /-- The parameters BUF_CAP and READ_FAIL (00_scope.md R10); constant. -/
  build : Build
  /-- The model's own: the draw that BUF's unlisted bytes read from (notes/assumptions/3.md). -/
  bufDraw : Nat
  /-- The model's own: the number of the next draw of free values. -/
  draws : Nat
  /-- The model's own: HOST changed the running command's inputs, so its results are unspecified
  (70_reset_and_hazards.md R148; notes/assumptions/11.md). -/
  tainted : Bool
  /-- The model's own: how many more HOST transactions fall before the running command completes
  (70_reset_and_hazards.md R155; notes/assumptions/4.md). -/
  latency : Nat
  /-- The model's own: what is still to come from outside, first first (notes/assumptions/6.md). -/
  events : List Event
  /-- The model's own: HOST's variables (30_encoding.md R80). -/
  vars : Vars
  deriving DecidableEq, Repr

/-- The reasons a step could stop with a fault: none. Every HOST protocol violation sets the mark `State.fault` and the
machine goes on (10_state.md R40; 60_exceptions.md R136), and every command ends with an error code at worst
(60_exceptions.md R125). Nobody raises a fault; safe, as no behaviour is left out. -/
inductive Fault where
  deriving DecidableEq, Repr

/-- The reasons a step could be refused. -/
inductive Refusal where
  /-- An instruction that has no meaning yet. Raised by an arm of `exec` only, and in this model by none; safe. -/
  | notModelled (mnemonic : String)
  deriving DecidableEq, Repr

/-- The state at power-on (10_state.md R41; FAULT is 0 at power-on). CMDL, t1..t6 and WIDX, which the spec leaves
unspecified, are 0 here (DESIGN CHOICE, unsafe: notes/assumptions/1.md); BUF lists nothing, so every byte is a free value
(R142); the parameters are the open ones of `Config`; nothing has yet come from outside (notes/assumptions/5.md). -/
def State.reset : State where
  busy := false
  lost := false
  err := .noError
  order := .undetermined
  len := 0#32
  csum1 := 0#32
  csum2 := 0#32
  cmdl := 0#32
  acc := { t1 := 0#32, t2 := 0#32, t3 := 0#32, t4 := 0#32, t5 := 0#32, t6 := 0#32 }
  widx := 0#18
  buf := []
  fault := false
  build := Config.build
  bufDraw := 0
  draws := 1
  tainted := false
  latency := 0
  events := []
  vars := []

end Sys2Proof.Machine
end

