-- ==== Sys2Proof/Machine/Flags.lean ====
section
/-!
DEFINITION. The codes of the STATUS fields and the STATUS word (10_state.md R24, R27, R28; 60_exceptions.md R123), and the
two comparisons of the checksum datapath. The block has no flag register (10_state.md R37).
-/
namespace Sys2Proof.Machine

/-- The code of an ordering tag in STATUS.ORDER; 3 is never produced (10_state.md R28). -/
def OrderTag.code : OrderTag → BitVec 2
  | .undetermined => 0#2
  | .native => 1#2
  | .u16LittleEndian => 2#2

/-- The code of STATUS.ERR; 6..15 are never produced (60_exceptions.md R123). -/
def ErrCode.code : ErrCode → BitVec 4
  | .noError => 0#4
  | .unknownOrdering => 1#4
  | .oddLength => 2#4
  | .notLongEnough => 3#4
  | .readError => 4#4
  | .illegalCommand => 5#4

/-- STATUS: BUSY bit 0, LOST bit 1, bits 3:2 read 0, ERR bits 7:4, ORDER bits 9:8, bits 31:10 read 0 (10_state.md R24). -/
def statusWord (busy lost : Bool) (err : BitVec 4) (order : BitVec 2) : Word :=
  (0#22 ++ (order ++ (err ++ (0#2 ++ (BitVec.ofBool lost ++ BitVec.ofBool busy)))) :
    BitVec (22 + (2 + (4 + (2 + (1 + 1))))))

/-- Sub-step (a): the sum k1 = t6 + c1 carried out of bit 31, which is k1 <u t6 (42_checksum.md R105). -/
def sumCarried (k1 t6 : Word) : Bool := k1.ult t6

/-- Sub-step (f): c1 <u t2 (42_checksum.md R110). -/
def belowT2 (c1 t2 : Word) : Bool := c1.ult t2

end Sys2Proof.Machine
end

