-- ==== Sys2Proof/Machine/Ops.lean ====
section
/-!
DEFINITION. The named operations over BUF and the registers: the buffer primitives (20_memory.md R47–R49), the free draws,
accept (10_state.md R30), how a command ends (00_scope.md R16; 10_state.md R31; 60_exceptions.md R125, R126), the FAULT
mark (10_state.md R40) and the reset input (70_reset_and_hazards.md R141). The block has no exception entry and no return
from one (60_exceptions.md R125, R134, R135): `raiseErr` is all that an error does.
-/
namespace Sys2Proof.Machine

/-! Sparse data by number: the entry of a key, and the update that keeps the keys rising. -/

/-- The entry at key `k`, where there is one. -/
def sparseFind {β : Type} (k : Nat) : List (Nat × β) → Option β
  | [] => none
  | c :: rest => if c.1 = k then some c.2 else sparseFind k rest

/-- The entry at key `k` becomes `v`; the keys stay rising. -/
def sparseInsert {β : Type} (k : Nat) (v : β) : List (Nat × β) → List (Nat × β)
  | [] => [(k, v)]
  | c :: rest =>
    if k < c.1 then (k, v) :: c :: rest
    else if k = c.1 then (k, v) :: rest
    else c :: sparseInsert k v rest

/-- The keys rise strictly from `lo` on. -/
def sparseRisingFrom {β : Type} (lo : Nat) : List (Nat × β) → Bool
  | [] => true
  | c :: rest => decide (lo ≤ c.1) && sparseRisingFrom (c.1 + 1) rest

/-- Every key lies below `hi`. -/
def sparseBelow {β : Type} (hi : Nat) : List (Nat × β) → Bool
  | [] => true
  | c :: rest => decide (c.1 < hi) && sparseBelow hi rest

/-- The canonical form of BUF: addresses strictly rising. What an unlisted address holds is no value of the model's but a
free one, so no listed byte equals it and nothing is to be left out (notes/assumptions/3.md). -/
def Memory.wf (m : Memory) : Bool := sparseRisingFrom 0 m

/-! The buffer primitives. -/

/-- `BufRead(a)` (20_memory.md R47). A byte that nothing has written is any value (10_state.md R41;
70_reset_and_hazards.md R142), and the same one at each read (20_memory.md R57). -/
def State.bufRead (s : State) (a : Nat) : Byte :=
  match sparseFind a s.buf with
  | some v => v
  | none => Config.freeByte s.bufDraw a

/-- `BufWrite(a, v)` (20_memory.md R48). -/
def State.bufWrite (a : Nat) (v : Byte) (s : State) : State :=
  { s with buf := sparseInsert a v s.buf }

/-- `{b0, b1, b2, b3}`: b0 is bits 31..24 (00_scope.md R15). -/
def bytesBE (b0 b1 b2 b3 : Byte) : Word :=
  (b0 ++ (b1 ++ (b2 ++ b3)) : BitVec (8 + (8 + (8 + 8))))

/-- `BufReadBE32(a)` (20_memory.md R49). -/
def State.bufReadBE32 (s : State) (a : Nat) : Word :=
  bytesBE (s.bufRead a) (s.bufRead (a + 1)) (s.bufRead (a + 2)) (s.bufRead (a + 3))

/-- BUF becomes unspecified: each byte any value, from a draw of its own (70_reset_and_hazards.md R142, R148). -/
def State.forgetBuf (s : State) : State :=
  { s with buf := [], bufDraw := s.draws, draws := s.draws + 1 }

/-- Six accumulators of which nothing is known. -/
def freeAcc (draw : Nat) : Acc where
  t1 := Config.freeWord draw 1
  t2 := Config.freeWord draw 2
  t3 := Config.freeWord draw 3
  t4 := Config.freeWord draw 4
  t5 := Config.freeWord draw 5
  t6 := Config.freeWord draw 6

/-- The accumulators and WIDX become unspecified (10_state.md R34, R36, R41; notes/assumptions/13.md). -/
def State.releaseAcc (s : State) : State :=
  { s with
    acc := freeAcc s.draws
    widx := (Config.freeWord s.draws 7).setWidth 18
    draws := s.draws + 1 }

/-! Accept, loss and the FAULT mark. -/

/-- Accept of the command word `v` (10_state.md R30). How long the command stays BUSY is drawn here
(70_reset_and_hazards.md R155; notes/assumptions/4.md). -/
def State.accept (v : Word) (s : State) : State :=
  { s with
    cmdl := v
    lost := false
    err := .noError
    busy := true
    tainted := false
    latency := Config.freeLatency s.draws
    draws := s.draws + 1 }

/-- A CMD write while BUSY = 1 (10_state.md R26). -/
def State.lose (s : State) : State := { s with lost := true }

/-- A HOST protocol violation (10_state.md R40; 60_exceptions.md R136). -/
def State.setFault (s : State) : State := { s with fault := true }

/-- HOST changes an input of the running command (70_reset_and_hazards.md R148). -/
def State.taint (s : State) : State := { s with fault := true, tainted := true }

/-- HOST's variable x takes a value that was read (30_encoding.md R80). -/
def State.setVar (x : Nat) (v : Word) (s : State) : State :=
  { s with vars := sparseInsert x v s.vars }

/-- HOST's variable x (30_encoding.md R80); one that nothing was read into holds a free value. -/
def State.varValue (s : State) (x : Nat) : Word :=
  match sparseFind x s.vars with
  | some v => v
  | none => Config.freeHostVar x

/-! How a command ends. -/

/-- `raise Err(code)` (00_scope.md R16; 60_exceptions.md R126): the error is recorded, nothing else. -/
def State.raiseErr (code : ErrCode) (s : State) : State := { s with err := code }

/-- `complete` (00_scope.md R16): ERR := 0. -/
def State.complete (s : State) : State := { s with err := .noError }

/-- STATUS.ORDER takes the detector's result (10_state.md R28). -/
def State.setOrder (o : OrderTag) (s : State) : State := { s with order := o }

/-- What a command may do, whatever its inputs: the codes it can end with (60_exceptions.md R124), whether it writes
STATUS.ORDER (10_state.md R28), and whether it uses the accumulators (10_state.md R34). -/
structure Outcomes where
  err0 : ErrCode
  err1 : ErrCode
  err2 : ErrCode
  writesOrder : Bool
  usesAcc : Bool
  deriving DecidableEq, Repr

/-- One of a command's codes, chosen by a free value. -/
def Outcomes.pickErr (o : Outcomes) (free : Word) : ErrCode :=
  match free.toNat % 3 with
  | 0 => o.err0
  | 1 => o.err1
  | _ => o.err2

/-- One of the three ordering tags, chosen by a free value. -/
def pickOrder (free : Word) : OrderTag :=
  match free.toNat % 3 with
  | 0 => .undetermined
  | 1 => .native
  | _ => .u16LittleEndian

/-- The results of a command whose inputs HOST changed while BUSY = 1: BUF, CSUM1 and CSUM2 are any values, ERR any code
and ORDER any tag that the command can produce (70_reset_and_hazards.md R148; notes/assumptions/11.md). -/
def State.unspecifiedResults (o : Outcomes) (s : State) : State :=
  let t : State :=
    { s with
      csum1 := Config.freeWord s.draws 1
      csum2 := Config.freeWord s.draws 2
      err := o.pickErr (Config.freeWord s.draws 3)
      order := if o.writesOrder then pickOrder (Config.freeWord s.draws 4) else s.order
      draws := s.draws + 1 }
  let u : State := if o.usesAcc then t.releaseAcc else t
  u.forgetBuf

/-- The end of a completion step: BUSY := 0 (10_state.md R31), after the command's rule has written its results, or after
they have become unspecified (70_reset_and_hazards.md R148). -/
def State.endCommand (o : Outcomes) (s : State) : State :=
  let t : State := if s.tainted then s.unspecifiedResults o else s
  { t with busy := false, tainted := false, latency := 0 }

/-! The reset input. -/

/-- The reset input (70_reset_and_hazards.md R141): every piece of state takes its reset value of 10_state.md R41, a
command in flight is abandoned, and FAULT stays. What R41 leaves unspecified (BUF, CMDL, t1..t6, WIDX) is any value. The
parameters, HOST's variables and what is still to come from outside are no state of the block. -/
def State.resetInput (s : State) : State :=
  let t : State :=
    { s with
      busy := false
      lost := false
      err := .noError
      order := .undetermined
      len := 0#32
      csum1 := 0#32
      csum2 := 0#32
      cmdl := Config.freeWord s.draws 1
      tainted := false
      latency := 0
      draws := s.draws + 1 }
  t.releaseAcc.forgetBuf

end Sys2Proof.Machine
end

