-- ==== Sys2Proof/Syntax.lean ====
section
/-!
DEFINITION. The commands of N64CSUM, one constructor for each row of spec/opcode_table.json (00_scope.md R2,
30_encoding.md R74).
-/
namespace Sys2Proof

/-- The target of a NORMALIZE: a closed type of exactly two orderings, so that `Undetermined` cannot be a target
(30_encoding.md R70, R71). -/
inductive Target where
  | native
  | u16LittleEndian
  deriving DecidableEq, Repr

/-- The three commands. DETECT and CHECKSUM have no operand field, NORMALIZE has TGT (30_encoding.md R74, R78). -/
inductive Instr where
  | detect
  | normalize (tgt : Target)
  | checksum
  deriving DecidableEq, Repr

end Sys2Proof
end

