-- ==== Sys2Proof/Machine/Operands.lean ====
section
/-!
DEFINITION. The operand forms: the target of NORMALIZE (30_encoding.md R70), the words of the checksum window
(42_checksum.md R102), the rotation of a window word (00_scope.md R15), and the values HOST writes (30_encoding.md R80).
-/
namespace Sys2Proof.Machine

/-- The ordering a NORMALIZE target names (30_encoding.md R70). -/
def targetTag : Target → OrderTag
  | .native => .native
  | .u16LittleEndian => .u16LittleEndian

/-- `rotl32(x, n)` for 0 ≤ n ≤ 31; rotation by 0 is x itself (00_scope.md R15). -/
def rotl32 (x : Word) (n : Nat) : Word :=
  if n = 0 then x else (x <<< n) ||| (x >>> (32 - n))

/-- k2, the rotate amount of a window word: its low 5 bits (42_checksum.md R108). -/
def rotateAmount (c1 : Word) : Nat := (c1 &&& Config.rotMask).toNat

/-- The BUF address of window word i (42_checksum.md R102). -/
def windowAddress (i : Nat) : Nat := Config.winBase + 4 * i

/-- Window word i (42_checksum.md R102). -/
def State.windowWord (s : State) (i : Nat) : Word := s.bufReadBE32 (windowAddress i)

/-- An address of the checksum window [0x1000, 0x101000) (42_checksum.md R102). -/
def inWindow (a : Nat) : Bool :=
  decide (Config.winBase ≤ a) && decide (a < Config.winBase + Config.winSize)

/-- The buffer memory reports some window byte unreadable (42_checksum.md R115). -/
def Build.windowFails (b : Build) : Bool := b.readFail.any inWindow

/-- The number that a HOST register write carries (30_encoding.md R80). -/
def WordVal.eval (s : State) : WordVal → Word
  | .imm v => v
  | .var x => s.varValue x

/-- Byte k of a register value in big-endian order: k = 0 is bits 31..24 (20_memory.md R58; 30_encoding.md R81). -/
def byteOfWord (v : Word) (k : Nat) : Byte := v.extractLsb' (24 - 8 * k) 8

/-- The byte that a HOST byte write carries (30_encoding.md R80, R81). -/
def ByteVal.eval (s : State) : ByteVal → Byte
  | .imm v => v
  | .var x k => byteOfWord (s.varValue x) k.val

end Sys2Proof.Machine
end

