-- ==== Sys2Proof/Machine/Bus.lean ====
section
/-!
DEFINITION. HOST: the bus transactions on REG and BUF (10_state.md R22–R33, R39; 20_memory.md R44–R57;
70_reset_and_hazards.md R148), the operations of HOST programs (30_encoding.md R80), and one HOST step.
-/
namespace Sys2Proof.Machine

/-! Register offsets (10_state.md R22). -/

def offCmd : Word := 0x00#32
def offStatus : Word := 0x04#32
def offLen : Word := 0x08#32
def offCsum1 : Word := 0x0C#32
def offCsum2 : Word := 0x10#32

/-- An access that reaches a register: 32 bits wide, aligned, below 0x40 (20_memory.md R44, R55, R56). -/
def regAccessOk (off : Word) (width : Width) : Bool :=
  width == .w32 && off.toNat % 4 == 0 && decide (off.toNat < 0x40)

/-- A BUF address that exists (20_memory.md R51, R53). -/
def State.bufAddressOk (s : State) (a : Word) : Bool := decide (a.toNat < s.build.bufCap)

/-! Register reads. Each gives the value and the state after the read: a read of what is unspecified while BUSY = 1 uses up
a draw, and no read changes anything else (10_state.md R39; 20_memory.md R57). -/

/-- One draw is used up. -/
def State.nextDraw (s : State) : State := { s with draws := s.draws + 1 }

/-- A read of STATUS: while BUSY = 1, ERR reads 0 and ORDER any value (10_state.md R24, R27, R39). -/
def State.readStatus (s : State) : Word × State :=
  if s.busy then
    (statusWord true s.lost 0#4 ((Config.freeWord s.draws 0).setWidth 2), s.nextDraw)
  else
    (statusWord false s.lost s.err.code s.order.code, s)

/-- A read of CSUM1 or CSUM2, which holds `v`: any value while BUSY = 1 (10_state.md R32, R39). -/
def State.readResult (v : Word) (s : State) : Word × State :=
  if s.busy then (Config.freeWord s.draws 0, s.nextDraw) else (v, s)

/-- A read of the register at `off`; CMD and the reserved slots read 0 (10_state.md R22, R23, R33). -/
def State.regRead (off : Word) (s : State) : Word × State :=
  if off = offStatus then s.readStatus
  else if off = offLen then (s.len, s)
  else if off = offCsum1 then s.readResult s.csum1
  else if off = offCsum2 then s.readResult s.csum2
  else (0#32, s)

/-! Register writes. -/

/-- A write to CMD: accepted or lost (10_state.md R23, R26, R30). -/
def State.writeCmd (v : Word) (s : State) : State :=
  if s.busy then s.lose else s.accept v

/-- min(v, BUF_CAP), what a write of v to LEN stores (10_state.md R29). -/
def State.clampLen (v : Word) (s : State) : Word :=
  if v.toNat ≤ s.build.bufCap then v else BitVec.ofNat 32 s.build.bufCap

/-- LEN takes min(v, BUF_CAP). -/
def State.setLen (v : Word) (s : State) : State := { s with len := s.clampLen v }

/-- A write to LEN (10_state.md R29); while BUSY = 1 it also is a protocol violation (70_reset_and_hazards.md R148;
notes/assumptions/12.md). -/
def State.writeLen (v : Word) (s : State) : State :=
  if s.busy then (s.setLen v).taint else s.setLen v

/-- A write to the register at `off`; writes to STATUS, CSUM1, CSUM2 and the reserved slots are ignored (10_state.md R22,
R24, R32, R33). -/
def State.regWrite (off v : Word) (s : State) : State :=
  if off = offCmd then s.writeCmd v
  else if off = offLen then s.writeLen v
  else s

/-! HOST's operations. -/

/-- `wr REG, v` (30_encoding.md R80); a malformed access sets FAULT and changes nothing else (20_memory.md R55, R56). -/
def State.hostWr (off : Word) (width : Width) (v : WordVal) (s : State) : State :=
  if regAccessOk off width then s.regWrite off (v.eval s) else s.setFault

/-- `rd REG -> x` (30_encoding.md R80; 20_memory.md R55, R56). -/
def State.hostRd (off : Word) (width : Width) (x : Nat) (s : State) : State :=
  if regAccessOk off width then (s.regRead off).2.setVar x (s.regRead off).1 else s.setFault

/-- `wrb a, v` (30_encoding.md R80): FAULT at or above BUF_CAP (20_memory.md R53); while BUSY = 1 a protocol violation
(70_reset_and_hazards.md R148). -/
def State.hostWrb (a : Word) (v : ByteVal) (s : State) : State :=
  if s.bufAddressOk a then
    if s.busy then (s.bufWrite a.toNat (v.eval s)).taint else s.bufWrite a.toNat (v.eval s)
  else s.setFault

/-- `rdb a -> x` (30_encoding.md R80): FAULT at or above BUF_CAP (20_memory.md R53); any byte while BUSY = 1
(70_reset_and_hazards.md R148). The byte is widened with zeros (00_scope.md R17). -/
def State.hostRdb (a : Word) (x : Nat) (s : State) : State :=
  if s.bufAddressOk a then
    if s.busy then s.nextDraw.setVar x ((Config.freeByte s.draws a.toNat).setWidth 32)
    else s.setVar x ((s.bufRead a.toNat).setWidth 32)
  else s.setFault

/-- One read of `wait`: it is repeated until bit 0 of STATUS is 0 (30_encoding.md R80). -/
def State.hostWait (s : State) : State :=
  let r := s.regRead offStatus
  if r.1.getLsbD 0 then { r.2 with events := .wait :: r.2.events } else r.2

/-- What comes from outside takes effect, as one atomic step (20_memory.md R54, R61). -/
def runEvent (e : Event) (s : State) : State :=
  match e with
  | .wr off width v => s.hostWr off width v
  | .rd off width x => s.hostRd off width x
  | .wrb a v => s.hostWrb a v
  | .rdb a x => s.hostRdb a x
  | .wait => s.hostWait
  | .reset => s.resetInput

/-- The next step from outside, in HOST's order (20_memory.md R61). With nothing to come the block stays as it is: while
BUSY = 0 ENGINE has no step (10_state.md R31; notes/assumptions/10.md). -/
def hostStep (s : State) : State :=
  match s.events with
  | [] => s
  | e :: rest => runEvent e { s with events := rest, latency := s.latency - 1 }

end Sys2Proof.Machine
end

