-- ==== Sys2Proof/Decode.lean ====
section
/-!
DEFINITION. The decoder of command words, total on all 32-bit words (30_encoding.md R75), and the encoder, written from
the same format CMDW (R68–R74).
-/
namespace Sys2Proof

/-- Why a word is no command (30_encoding.md R69, R72, R73). The block reports one code for all of them (R76). -/
inductive Illegal where
  /-- RES0 or RES1 is not 0 (R73). -/
  | reservedBits
  /-- OP is 0x0 or 0x4–0xF (R69). -/
  | operation
  /-- TGT = 1 with DETECT or CHECKSUM (R72). -/
  | target
  deriving DecidableEq, Repr

/-- What the decoder answers: a command, or ILLEGAL with its reason (30_encoding.md R75). -/
inductive Decoded where
  | legal (i : Instr)
  | illegal (why : Illegal)
  deriving DecidableEq, Repr

/-- OP, bits 3:0 (30_encoding.md R68). -/
def fieldOp (w : Word) : BitVec 4 := w.extractLsb' 0 4

/-- RES0, bits 7:4 (30_encoding.md R68). -/
def fieldRes0 (w : Word) : BitVec 4 := w.extractLsb' 4 4

/-- TGT, bit 8 (30_encoding.md R68). -/
def fieldTgt (w : Word) : Bool := w.getLsbD 8

/-- RES1, bits 31:9 (30_encoding.md R68). -/
def fieldRes1 (w : Word) : BitVec 23 := w.extractLsb' 9 23

/-- The NORMALIZE target that TGT selects (30_encoding.md R70). -/
def targetOfTgt (tgt : Bool) : Target :=
  if tgt then .u16LittleEndian else .native

/-- The command of a word whose reserved bits are 0, from its OP and TGT (30_encoding.md R69, R72). -/
def decodeOp (op : BitVec 4) (tgt : Bool) : Decoded :=
  if op = 0x1#4 then
    if tgt then .illegal .target else .legal .detect
  else if op = 0x2#4 then
    .legal (.normalize (targetOfTgt tgt))
  else if op = 0x3#4 then
    if tgt then .illegal .target else .legal .checksum
  else
    .illegal .operation

/-- The decoder (30_encoding.md R75). -/
def decode (w : Word) : Decoded :=
  if fieldRes0 w ≠ 0#4 ∨ fieldRes1 w ≠ 0#23 then .illegal .reservedBits
  else decodeOp (fieldOp w) (fieldTgt w)

/-- The instruction alone, where there is one. -/
def Decoded.instr? : Decoded → Option Instr
  | .legal i => some i
  | .illegal _ => none

/-- The instruction in the bits `w` of a word that the opcode table gives `nbits` bits. A command is one 32-bit register
value, with no byte order (30_encoding.md R67, 20_memory.md R45), so its bits are numbered as the table numbers them; bits
at and above `nbits` are 0, and a number of more than 32 bits is no command word. -/
def decodeTableWord (nbits w : Nat) : Option Instr :=
  let bits := w % 2 ^ nbits
  if bits < 2 ^ 32 then (decode (BitVec.ofNat 32 bits)).instr? else none

/-- A word laid out as format CMDW, reserved bits 0 (30_encoding.md R68). -/
def assembleFields (op : BitVec 4) (tgt : Bool) : Word :=
  (0#23 ++ (BitVec.ofBool tgt ++ (0#4 ++ op)) : BitVec (23 + (1 + (4 + 4))))

/-- The encoder (30_encoding.md R69, R70, R74). -/
def encode : Instr → Word
  | .detect => assembleFields 0x1#4 false
  | .normalize .native => assembleFields 0x2#4 false
  | .normalize .u16LittleEndian => assembleFields 0x2#4 true
  | .checksum => assembleFields 0x3#4 false

/-! Each legal word, as 30_encoding.md R74 writes it out. -/

theorem decode_detect_word : decode 0x00000001#32 = .legal .detect := by decide

theorem decode_normalize_native_word : decode 0x00000002#32 = .legal (.normalize .native) := by decide

theorem decode_normalize_u16le_word : decode 0x00000102#32 = .legal (.normalize .u16LittleEndian) := by decide

theorem decode_checksum_word : decode 0x00000003#32 = .legal .checksum := by decide

end Sys2Proof
end

