-- ==== Sys2Proof/Machine/Checksum.lean ====
section
/-!
DEFINITION. The checksum engine: the micro-steps ACC_INIT, ACC_STEP and ACC_FINAL (42_checksum.md R103–R113) and the
CHECKSUM command (R100).
-/
namespace Sys2Proof.Machine

/-- ACC_INIT: all six accumulators take SEED (42_checksum.md R103). -/
def accInit : Acc where
  t1 := Config.seed
  t2 := Config.seed
  t3 := Config.seed
  t4 := Config.seed
  t5 := Config.seed
  t6 := Config.seed

/-- ACC_STEP(c1): sub-steps (a) to (g), each reading what the previous ones left (42_checksum.md R104–R112). -/
def accStep (c1 : Word) (a : Acc) : Acc :=
  let sum := a.t6 + c1
  let t4 := if sumCarried sum a.t6 then a.t4 + 1#32 else a.t4
  let t6 := sum
  let t3 := a.t3 ^^^ c1
  let k1 := rotl32 c1 (rotateAmount c1)
  let t5 := a.t5 + k1
  let t2 := if belowT2 c1 a.t2 then a.t2 ^^^ k1 else a.t2 ^^^ t6 ^^^ c1
  let t1 := a.t1 + (c1 ^^^ t5)
  { t1 := t1, t2 := t2, t3 := t3, t4 := t4, t5 := t5, t6 := t6 }

/-- ACC_STEP on the next n window words of `s`, from word i on, in increasing order; i is what WIDX holds (42_checksum.md R100,
R102; 10_state.md R36). -/
def accLoop (s : State) : (n i : Nat) → Acc → Acc
  | 0, _, a => a
  | n + 1, i, a => accLoop s n (i + 1) (accStep (s.windowWord i) a)

/-- How many words of the window CHECKSUM accumulates: WIN_WORDS = 0x40000 where LEN ≥ MIN_CSUM_LEN (42_checksum.md R102), none
on a shorter buffer, of which it reads no byte (R101). Decided from LEN here too, so that no proof about an unknown state sets
0x40000 steps running by unfolding. -/
def State.windowCount (s : State) : Nat :=
  if Config.minCsumLen ≤ s.len.toNat then Config.winWords else 0

/-- The accumulators after the whole window of `s` (42_checksum.md R100). -/
def State.windowAcc (s : State) : Acc := accLoop s s.windowCount 0 accInit

/-- ACC_FINAL, checksum1 (42_checksum.md R113). -/
def Acc.final1 (a : Acc) : Word := a.t6 ^^^ a.t4 ^^^ a.t3

/-- ACC_FINAL, checksum2 (42_checksum.md R113). -/
def Acc.final2 (a : Acc) : Word := a.t5 ^^^ a.t2 ^^^ a.t1

/-- The accumulators hold `a` after the last word, which WIDX names, and CSUM1 and CSUM2 take the result of ACC_FINAL
(42_checksum.md R100, R113). -/
def State.latchChecksum (a : Acc) (s : State) : State :=
  { s with
    acc := a
    widx := BitVec.ofNat 18 (Config.winWords - 1)
    csum1 := a.final1
    csum2 := a.final2 }

/-- The checksum pair as one 64-bit value, checksum1 in the high half (00_scope.md R19; 42_checksum.md R113). -/
def State.checksum64 (s : State) : BitVec 64 := (s.csum1 ++ s.csum2 : BitVec (32 + 32))

/-- What CHECKSUM can do (60_exceptions.md R124; 10_state.md R28, R34). -/
def checksumOutcomes : Outcomes :=
  { err0 := .noError, err1 := .notLongEnough, err2 := .readError, writesOrder := false, usesAcc := true }

/-- The rule of CHECKSUM before BUSY is cleared (42_checksum.md R100): the length check, the readability of the window,
then the recurrence. After it the accumulators are unspecified (10_state.md R34; notes/assumptions/13.md). -/
def State.checksumRule (s : State) : State :=
  if s.len.toNat < Config.minCsumLen then s.raiseErr .notLongEnough
  else if Build.windowFails s.build then s.raiseErr .readError
  else (s.latchChecksum s.windowAcc).releaseAcc.complete

/-- CHECKSUM (42_checksum.md R100): its completion step. -/
def execChecksum (s : State) : Host.Outcome State Fault Refusal :=
  .next (s.checksumRule.endCommand checksumOutcomes)

end Sys2Proof.Machine
end

