-- ==== Sys2Proof/Machine/Detector.lean ====
section
/-!
DEFINITION. The byte-order magic detector (40_detector.md R83) and the DETECT command (R82).
-/
namespace Sys2Proof.Machine

/-- BUF bytes 0..3 are these (40_detector.md R83). -/
def State.magicIs (s : State) (b0 b1 b2 b3 : Byte) : Bool :=
  s.bufRead 0 == b0 && s.bufRead 1 == b1 && s.bufRead 2 == b2 && s.bufRead 3 == b3

/-- The detector, a pure function of LEN and BUF bytes 0..3 (40_detector.md R83–R87; 00_scope.md R8). -/
def State.detect (s : State) : OrderTag :=
  if s.len.ult 4#32 then .undetermined
  else if s.magicIs 0x80#8 0x37#8 0x12#8 0x40#8 then .native
  else if s.magicIs 0x37#8 0x80#8 0x40#8 0x12#8 then .u16LittleEndian
  else .undetermined

/-- What DETECT can do: it never fails, and it writes ORDER (60_exceptions.md R124; 10_state.md R28). -/
def detectOutcomes : Outcomes :=
  { err0 := .noError, err1 := .noError, err2 := .noError, writesOrder := true, usesAcc := false }

/-- The rule of DETECT before BUSY is cleared (40_detector.md R82). -/
def State.detectRule (s : State) : State := (s.setOrder s.detect).complete

/-- DETECT (40_detector.md R82): its completion step. -/
def execDetect (s : State) : Host.Outcome State Fault Refusal :=
  .next (s.detectRule.endCommand detectOutcomes)

end Sys2Proof.Machine
end

