-- ==== Sys2Proof/Machine/Normalizer.lean ====
section
/-!
DEFINITION. The 16-bit word-swap normalizer and the NORMALIZE command (41_normalizer.md R89).
-/
namespace Sys2Proof.Machine

/-- Exchange of the bytes of pair i, at 2i and 2i+1 (41_normalizer.md R94). -/
def State.swapPair (i : Nat) (s : State) : State :=
  let a := s.bufRead (2 * i)
  let b := s.bufRead (2 * i + 1)
  (s.bufWrite (2 * i) b).bufWrite (2 * i + 1) a

/-- The first n pairs, 0 to n − 1, one after the other (41_normalizer.md R89, R94; 90_conflicts.md C1). -/
def swapPairs : Nat → State → State
  | 0, s => s
  | n + 1, s => (swapPairs n s).swapPair n

/-- What NORMALIZE can do (60_exceptions.md R124; 10_state.md R28). -/
def normalizeOutcomes : Outcomes :=
  { err0 := .noError, err1 := .unknownOrdering, err2 := .oddLength, writesOrder := true, usesAcc := false }

/-- The rule of NORMALIZE before BUSY is cleared (41_normalizer.md R89): the ordering check, the length check, the no-op
test, then the swap, in this order (R92). -/
def State.normalizeRule (tgt : Target) (s : State) : State :=
  let o := s.detect
  if o = .undetermined then (s.setOrder .undetermined).raiseErr .unknownOrdering
  else if s.len.getLsbD 0 then (s.setOrder o).raiseErr .oddLength
  else if o = targetTag tgt then (s.setOrder o).complete
  else ((swapPairs (s.len.toNat / 2) s).setOrder (targetTag tgt)).complete

/-- NORMALIZE (41_normalizer.md R89): its completion step. -/
def execNormalize (tgt : Target) (s : State) : Host.Outcome State Fault Refusal :=
  .next ((s.normalizeRule tgt).endCommand normalizeOutcomes)

end Sys2Proof.Machine
end

