-- ==== Sys2Proof/Machine/Dispatch.lean ====
section
/-!
DEFINITION. One arm per command (10_state.md R31; 30_encoding.md R74).
-/
namespace Sys2Proof.Machine

def exec (i : Instr) (s : State) : Host.Outcome State Fault Refusal :=
  match i with
  | .detect => Sys2Proof.Machine.execDetect s
  | .normalize tgt => Sys2Proof.Machine.execNormalize tgt s
  | .checksum => Sys2Proof.Machine.execChecksum s

end Sys2Proof.Machine
end

