-- ==== Sys2Proof/Machine/Engine.lean ====
section
/-!
DEFINITION. ENGINE: the completion step (10_state.md R31), with the illegal command (30_encoding.md R76).
-/
namespace Sys2Proof.Machine

/-- What an illegal word can do: it always ends with code 5 (60_exceptions.md R124). -/
def illegalOutcomes : Outcomes :=
  { err0 := .illegalCommand, err1 := .illegalCommand, err2 := .illegalCommand, writesOrder := false, usesAcc := false }

/-- An ILLEGAL command word at completion: ERR := 5 and nothing else, then BUSY := 0 (30_encoding.md R76). -/
def State.illegalCommand (s : State) : State :=
  (s.raiseErr .illegalCommand).endCommand illegalOutcomes

/-- ENGINE's step: decode CMDL and perform the selected command (10_state.md R31; 30_encoding.md R75). -/
def engineStep (s : State) : Host.Outcome State Fault Refusal :=
  match decode s.cmdl with
  | .legal i => exec i s
  | .illegal _ => .next s.illegalCommand

/-- ENGINE moves next: a command is BUSY (10_state.md R31), and the HOST transactions that fall before its completion have
fallen, or HOST has none left (70_reset_and_hazards.md R155; notes/assumptions/4.md). -/
def State.engineTurn (s : State) : Bool :=
  s.busy && (s.events.isEmpty || s.latency == 0)

/-- The command word `w` as just accepted, ENGINE moving next. -/
def State.acceptNow (w : Word) (s : State) : State :=
  { s.accept w with latency := 0 }

end Sys2Proof.Machine
end

