-- ==== Sys2Proof/Machine/Step.lean ====
section
/-!
DEFINITION. One step of the machine: a completion by ENGINE, or the next step from outside (00_scope.md R12; 20_memory.md
R61). And the accept that puts a given command word before ENGINE.
-/
namespace Sys2Proof.Machine

/-- One step. -/
def step (s : State) : Host.Outcome State Fault Refusal :=
  if s.engineTurn then engineStep s else .next (hostStep s)

/-- `s` with the instruction of bits `w` just accepted into CMDL (10_state.md R30, R35), ENGINE moving next: the block
fetches no instructions, a CMD write selects its command (10_state.md R21; notes/assumptions/6.md). -/
def State.withFetchWord (s : State) (nbits w : Nat) : State :=
  s.acceptNow (BitVec.ofNat 32 (w % 2 ^ nbits))

end Sys2Proof.Machine
end

