-- ==== Sys2Proof/Safety.lean ====
section
/-!
DEFINITION. What counts as a safe run: no FAULT (10_state.md R40), HOST keeping the BUSY protocol (70_reset_and_hazards.md
R147), and the invariant of the machine.
-/
namespace Sys2Proof.Machine

/-- A state that may be a final state: FAULT is not set (10_state.md R40). -/
def State.safe (s : State) : Bool := !s.fault

/-- What comes next keeps HOST's rules in this state: it is an access that exists (20_memory.md R44, R51), and while BUSY = 1 it
reads STATUS, CMD, LEN or a reserved slot, or waits, but uses no result, changes no input and gives no command
(70_reset_and_hazards.md R147). The reset input is not HOST's to misuse. -/
def State.permits (s : State) : Event → Bool
  | .wr off width _ => regAccessOk off width && !(s.busy && (off == offLen || off == offCmd))
  | .rd off width _ => regAccessOk off width && !(s.busy && (off == offCsum1 || off == offCsum2))
  | .wrb a _ => s.bufAddressOk a && !s.busy
  | .rdb a _ => s.bufAddressOk a && !s.busy
  | .wait => true
  | .reset => true

/-- The invariant: what every run keeps. -/
structure State.Inv (s : State) : Prop where
  /-- BUF_CAP is within the bounds of 00_scope.md R10. -/
  build : s.build.wf = true
  /-- BUF is in its canonical form. -/
  bufRising : Memory.wf s.buf = true
  /-- BUF lists only addresses that exist (20_memory.md R46). -/
  bufBelow : sparseBelow s.build.bufCap s.buf = true
  /-- LEN never exceeds BUF_CAP (10_state.md R29). -/
  lenBound : s.len.toNat ≤ s.build.bufCap
  /-- While BUSY = 1, ERR is 0 (10_state.md R27). -/
  busyErr : s.busy = true → s.err = .noError
  /-- Results are unspecified only in a command whose inputs HOST changed, which set FAULT (70_reset_and_hazards.md
  R148). -/
  taintedFault : s.tainted = true → s.busy = true ∧ s.fault = true
  /-- No command is to complete while BUSY = 0 (10_state.md R31). -/
  idleLatency : s.busy = false → s.latency = 0
  /-- BUF's free bytes come from an earlier draw than any still to come. -/
  drawn : s.bufDraw < s.draws
  /-- HOST's variables are in their canonical form. -/
  varsRising : sparseRisingFrom 0 s.vars = true

end Sys2Proof.Machine
end

