-- ==== Sys2Proof/WellFormed.lean ====
section
/-!
DEFINITION. The checks that make a command word legal (30_encoding.md R68–R73), and the well-formedness of `Instr`.
-/
namespace Sys2Proof

/-- Every term of `Instr` is a legal command: the type has no ill-formed term, since TGT has two values (30_encoding.md
R71) and the other commands carry no field (R78). -/
def Instr.wellFormed : Instr → Bool
  | .detect => true
  | .normalize .native => true
  | .normalize .u16LittleEndian => true
  | .checksum => true

/-- RES0 and RES1, bits 7:4 and 31:9, are 0 (30_encoding.md R68, R73). -/
def wordReservedClear (w : Word) : Bool :=
  w.extractLsb' 4 4 == 0#4 && w.extractLsb' 9 23 == 0#23

/-- OP, bits 3:0, names a command: 1, 2 or 3 (30_encoding.md R69). -/
def wordOperationKnown (w : Word) : Bool :=
  w.extractLsb' 0 4 == 1#4 || w.extractLsb' 0 4 == 2#4 || w.extractLsb' 0 4 == 3#4

/-- TGT, bit 8, is 1 only in a NORMALIZE (30_encoding.md R72). -/
def wordTargetAllowed (w : Word) : Bool :=
  !w.getLsbD 8 || w.extractLsb' 0 4 == 2#4

/-- A legal command word (30_encoding.md R74): one that passes the three checks. -/
def wordWellFormed (w : Word) : Bool :=
  wordReservedClear w && wordOperationKnown w && wordTargetAllowed w

end Sys2Proof
end

