-- ==== Sys2Proof/Certificates/Slice0/Obligations.lean ====
section
/-!
DEFINITION. The statements for the provers. Each follows numbered rules of spec/; its docstring names them. In a statement
that HOST's next transaction takes effect, `s.engineTurn = false` says that ENGINE does not move first; it follows from
`s.busy = false`.
-/

/-! What the statements compare the machine with: the recurrence of 42_checksum.md R103–R113 over integers and lists, written
apart from the model's own. -/

/-- All six hold SEED (42_checksum.md R103). -/
def Sys2Proof.Claims.accSeed : Sys2Proof.Machine.Acc :=
  ⟨0xF8CA4DDC#32, 0xF8CA4DDC#32, 0xF8CA4DDC#32, 0xF8CA4DDC#32, 0xF8CA4DDC#32, 0xF8CA4DDC#32⟩

/-- One word of the recurrence: the carry is that of the integer sum (42_checksum.md R105), the rotation is by the word modulo
32 (R108), and t1 and t2 read the new t5 and t6 (R110, R111). -/
def Sys2Proof.Claims.accNext (a : Sys2Proof.Machine.Acc) (c1 : Sys2Proof.Word) : Sys2Proof.Machine.Acc where
  t1 := a.t1 + (c1 ^^^ (a.t5 + c1.rotateLeft (c1.toNat % 32)))
  t2 := if c1.toNat < a.t2.toNat then a.t2 ^^^ c1.rotateLeft (c1.toNat % 32) else a.t2 ^^^ (a.t6 + c1) ^^^ c1
  t3 := a.t3 ^^^ c1
  t4 := if 2 ^ 32 ≤ a.t6.toNat + c1.toNat then a.t4 + 1#32 else a.t4
  t5 := a.t5 + c1.rotateLeft (c1.toNat % 32)
  t6 := a.t6 + c1

/-- The window words in order, each the number its four bytes write big-endian (42_checksum.md R102; 20_memory.md R49). -/
def Sys2Proof.Claims.windowWords (s : Sys2Proof.Machine.State) : List Sys2Proof.Word :=
  (List.range 0x40000).map fun i =>
    BitVec.ofNat 32
      ((s.bufRead (0x1000 + 4 * i)).toNat * 2 ^ 24 + (s.bufRead (0x1000 + 4 * i + 1)).toNat * 2 ^ 16 +
        (s.bufRead (0x1000 + 4 * i + 2)).toNat * 2 ^ 8 + (s.bufRead (0x1000 + 4 * i + 3)).toNat)

/-- The checksum pair of a list of words (42_checksum.md R113). -/
def Sys2Proof.Claims.checksumPair (ws : List Sys2Proof.Word) : Sys2Proof.Word × Sys2Proof.Word :=
  let a := ws.foldl Sys2Proof.Claims.accNext Sys2Proof.Claims.accSeed
  (a.t6 ^^^ a.t4 ^^^ a.t3, a.t5 ^^^ a.t2 ^^^ a.t1)

/-- What CHECKSUM needs to complete: no input was changed under it, LEN is long enough, and no window byte is unreadable
(42_checksum.md R100). -/
def Sys2Proof.Claims.checksumReady (s : Sys2Proof.Machine.State) : Prop :=
  s.tainted = false ∧ 0x101000 ≤ s.len.toNat ∧
    ∀ a, 0x1000 ≤ a → a < 0x101000 → s.build.fails a = false

/-- The protocol violations that 60_exceptions.md R136 lists. -/
def Sys2Proof.Claims.violates (s : Sys2Proof.Machine.State) : Sys2Proof.Machine.Event → Prop
  | .wr off width _ =>
    width ≠ .w32 ∨ off.toNat % 4 ≠ 0 ∨ 0x40 ≤ off.toNat ∨ (s.busy = true ∧ off = 0x08#32)
  | .rd off width _ => width ≠ .w32 ∨ off.toNat % 4 ≠ 0 ∨ 0x40 ≤ off.toNat
  | .wrb a _ => s.build.bufCap ≤ a.toNat ∨ s.busy = true
  | .rdb a _ => s.build.bufCap ≤ a.toNat
  | .wait => False
  | .reset => False

/-- HOST's next transaction is this one, and ENGINE does not move first. -/
def Sys2Proof.Claims.hostNext (s : Sys2Proof.Machine.State) (e : Sys2Proof.Machine.Event)
    (rest : List Sys2Proof.Machine.Event) : Prop :=
  s.engineTurn = false ∧ s.events = e :: rest

/-- The state in which HOST's transaction was taken from what is to come, and nothing else happened. -/
def Sys2Proof.Claims.taken (s : Sys2Proof.Machine.State) (rest : List Sys2Proof.Machine.Event) :
    Sys2Proof.Machine.State :=
  { s with events := rest, latency := s.latency - 1 }

/-- HOST read the value into its variable x, and its other variables keep theirs (30_encoding.md R80, R81). -/
def Sys2Proof.Claims.readInto (s t : Sys2Proof.Machine.State) (x : Nat) (v : Sys2Proof.Word) : Prop :=
  t.varValue x = v ∧ ∀ y, y ≠ x → t.varValue y = s.varValue y

/-- ENGINE's completion leaves BUF, CSUM1 and CSUM2 with free values, of draws not used before
(70_reset_and_hazards.md R148). -/
def Sys2Proof.Claims.resultsFree (s : Sys2Proof.Machine.State) : Prop :=
  ∃ t c b, Sys2Proof.Machine.engineStep s = .next t ∧ s.draws ≤ c ∧ c < b ∧ b < t.draws ∧
    t.csum1 = Sys2Proof.Config.freeWord c 1 ∧ t.csum2 = Sys2Proof.Config.freeWord c 2 ∧
    ∀ a, t.bufRead a = Sys2Proof.Config.freeByte b a

open Sys2Proof Sys2Proof.Machine Sys2Proof.Claims

/-! Encoding -/

/-- A few words as 30_encoding.md R74 and 95_test_vectors.md section 2 write them. -/
def Obligations.SampleWordsDecode : Prop :=
  decode 0x00000001#32 = .legal .detect ∧ decodeTableWord 32 0x00000102 = some (.normalize .u16LittleEndian) ∧
    decodeTableWord 32 0x00000003 = some .checksum ∧ decode 0x00000103#32 = .illegal .target ∧
    decode 0x80000003#32 = .illegal .reservedBits ∧ decode 0x00000000#32 = .illegal .operation

/-- 30_encoding.md R74: the complete set of legal command words is four words, with these commands. -/
def Obligations.LegalWordsAreFour : Prop :=
  ∀ (w : Word) (i : Instr),
    decode w = .legal i ↔
      (w = 0x00000001#32 ∧ i = .detect) ∨ (w = 0x00000002#32 ∧ i = .normalize .native) ∨
        (w = 0x00000102#32 ∧ i = .normalize .u16LittleEndian) ∨ (w = 0x00000003#32 ∧ i = .checksum)

/-- Decode and encode agree, both ways, for every word and every instruction (30_encoding.md R74, R75). -/
def Obligations.DecodeEncodeAgree : Prop :=
  (∀ i : Instr, i.wellFormed = true → decode (encode i) = .legal i) ∧
    ∀ (w : Word) (i : Instr), decode w = .legal i → encode i = w

/-- 30_encoding.md R75: the decoder on the number that the word is: bits 7:4 are (w / 16) mod 16, bits 31:9 are w / 512, bit 8
is (w / 256) mod 2, bits 3:0 are w mod 16. -/
def Obligations.DecoderFollowsFields : Prop :=
  ∀ w : Word,
    let res := (w.toNat / 16) % 16 = 0 ∧ w.toNat / 512 = 0
    let tgt := (w.toNat / 256) % 2
    let op := w.toNat % 16
    (¬res → ∃ why, decode w = .illegal why) ∧
      (res → op = 1 → tgt = 0 → decode w = .legal .detect) ∧
      (res → op = 2 → tgt = 0 → decode w = .legal (.normalize .native)) ∧
      (res → op = 2 → tgt = 1 → decode w = .legal (.normalize .u16LittleEndian)) ∧
      (res → op = 3 → tgt = 0 → decode w = .legal .checksum) ∧
      (res → (op = 1 ∨ op = 3) → tgt = 1 → ∃ why, decode w = .illegal why) ∧
      (res → op ≠ 1 → op ≠ 2 → op ≠ 3 → ∃ why, decode w = .illegal why)

/-- The three checks of a legal word accept exactly the words that decode (30_encoding.md R69, R72, R73). -/
def Obligations.ChecksMatchDecoder : Prop :=
  ∀ w : Word, wordWellFormed w = true ↔ ∃ i, decode w = .legal i

/-! The step -/

/-- While BUSY = 1 and ENGINE moves next, a step is exactly exec of the command that CMDL decodes to (10_state.md R31), and the
accept that `withFetchWord` performs puts that command there. -/
def Obligations.StepRunsDecodedInstruction : Prop :=
  (∀ (s : State) (i : Instr), s.busy = true → (s.events = [] ∨ s.latency = 0) → decode s.cmdl = .legal i →
      step s = exec i s) ∧
    ∀ (s : State) (nbits w : Nat) (i : Instr), decodeTableWord nbits w = some i →
      decode (s.withFetchWord nbits w).cmdl = .legal i ∧
        step (s.withFetchWord nbits w) = exec i (s.withFetchWord nbits w)

/-- 30_encoding.md R76 and 60_exceptions.md R130: an illegal word at completion sets ERR to 5, whatever LEN and BUF hold;
BUSY is cleared; nothing else changes (`latency` is the model's own). -/
def Obligations.IllegalWordCompletes : Prop :=
  ∀ (s : State) (why : Illegal), s.busy = true → (s.events = [] ∨ s.latency = 0) → s.tainted = false →
    decode s.cmdl = .illegal why →
    step s = .next { s with err := .illegalCommand, busy := false, latency := 0 } ∧ ErrCode.code .illegalCommand = 5#4

/-- No state has a step that stops: while BUSY = 1 ENGINE's completion is enabled (10_state.md R31), and an error is no trap
(60_exceptions.md R125). That a protocol violation sets FAULT and the machine goes on is the model's notes/assumptions/14.md; that an
idle block with nothing to come answers a next state, the same, is the model's notes/assumptions/10.md. -/
def Obligations.NoStepStops : Prop :=
  ∀ s : State, ∃ t, step s = .next t

/-- 10_state.md R31: while BUSY = 1 ENGINE's step is enabled and clears BUSY. When it is the machine's next step is the model's
notes/assumptions/4.md: where nothing is to come from outside, or the HOST transactions drawn for the command have fallen. While
BUSY = 0 ENGINE has no step, and with nothing to come the state stays (the model's choice, notes/assumptions/10.md). -/
def Obligations.CompletionClearsBusy : Prop :=
  (∀ s : State, s.busy = true →
      (∃ t, engineStep s = .next t ∧ t.busy = false) ∧
        ((s.events = [] ∨ s.latency = 0) → step s = engineStep s)) ∧
    ∀ s : State, s.busy = false → s.events = [] → step s = .next s

/-- Every accepted command completes, or is abandoned by reset, after at most as many HOST steps as were drawn for it
(10_state.md R31; 70_reset_and_hazards.md R155; the number drawn is the model's free value, notes/assumptions/4.md). -/
def Obligations.BusyCommandCompletes : Prop :=
  ∀ s : State, s.busy = true →
    ∃ k t, k ≤ s.latency + 1 ∧ Host.Core.run Sys2Proof.core k s = .next t ∧ t.busy = false

/-! DETECT -/

/-- 40_detector.md R83–R87: the detector's classification of LEN and BUF bytes 0..3. -/
def Obligations.DetectorClassifies : Prop :=
  ∀ s : State,
    (s.len.toNat < 4 → s.detect = .undetermined) ∧
      (4 ≤ s.len.toNat → s.bufReadBE32 0 = 0x80371240#32 → s.detect = .native) ∧
      (4 ≤ s.len.toNat → s.bufReadBE32 0 = 0x37804012#32 → s.detect = .u16LittleEndian) ∧
      (s.bufReadBE32 0 ≠ 0x80371240#32 → s.bufReadBE32 0 ≠ 0x37804012#32 → s.detect = .undetermined)

/-- 40_detector.md R87: bytes at addresses ≥ 4 never affect the detector. -/
def Obligations.DetectorReadsMagicOnly : Prop :=
  ∀ s t : State, s.len = t.len → (∀ a, a < 4 → s.bufRead a = t.bufRead a) → s.detect = t.detect

/-- 40_detector.md R82: DETECT, word 0x00000001, completes with ORDER the detector's result and ERR = 0; BUSY is cleared; nothing
else changes. -/
def Obligations.DetectCompletes : Prop :=
  encode .detect = 0x00000001#32 ∧
    ∀ s : State, s.tainted = false →
      exec .detect s = .next { s with order := s.detect, err := .noError, busy := false, latency := 0 }

/-! NORMALIZE -/

/-- 41_normalizer.md R90, R92: with no recognised magic NORMALIZE fails with UNKNOWN_ORDERING, whatever LEN's parity; no BUF
byte changes. -/
def Obligations.NormalizeRefusesUnknownOrdering : Prop :=
  ∀ (s : State) (tgt : Target), s.tainted = false → s.detect = .undetermined →
    exec (.normalize tgt) s =
      .next { s with order := .undetermined, err := .unknownOrdering, busy := false, latency := 0 }

/-- 41_normalizer.md R91, R92: with a recognised magic and an odd LEN it fails with ODD_LENGTH, whatever the target; no BUF byte
changes. -/
def Obligations.NormalizeRefusesOddLength : Prop :=
  ∀ (s : State) (tgt : Target), s.tainted = false → s.detect ≠ .undetermined → s.len.toNat % 2 = 1 →
    exec (.normalize tgt) s =
      .next { s with order := s.detect, err := .oddLength, busy := false, latency := 0 }

/-- 41_normalizer.md R93: the target is the current ordering; success, no BUF byte changes. -/
def Obligations.NormalizeToCurrentIsNoOp : Prop :=
  ∀ (s : State) (tgt : Target), s.tainted = false → s.len.toNat % 2 = 0 → s.detect = targetTag tgt →
    exec (.normalize tgt) s =
      .next { s with order := targetTag tgt, err := .noError, busy := false, latency := 0 }

/-- 41_normalizer.md R94, R95: otherwise every byte pair of [0, LEN) is exchanged: the new byte at a is the old byte at a XOR 1,
and bytes at and above LEN stay. -/
def Obligations.NormalizeSwapsEveryPair : Prop :=
  ∀ (s : State) (tgt : Target), s.tainted = false → s.len.toNat % 2 = 0 → s.detect ≠ .undetermined →
    s.detect ≠ targetTag tgt →
    ∃ t, exec (.normalize tgt) s = .next t ∧
      (∀ a, a < s.len.toNat → t.bufRead a = s.bufRead (a ^^^ 1)) ∧
      (∀ a, s.len.toNat ≤ a → t.bufRead a = s.bufRead a) ∧
      t = { s with buf := t.buf, order := targetTag tgt, err := .noError, busy := false, latency := 0 }

/-- 41_normalizer.md R99: after a swap the detector's result is the target. -/
def Obligations.SwapReachesTarget : Prop :=
  ∀ (s t : State) (tgt : Target), s.tainted = false → s.len.toNat % 2 = 0 → s.detect ≠ .undetermined →
    s.detect ≠ targetTag tgt → exec (.normalize tgt) s = .next t → t.detect = targetTag tgt

/-- 41_normalizer.md R96: to the other ordering and back restores every byte, and both commands complete with ERR = 0. -/
def Obligations.NormalizeRoundTrip : Prop :=
  ∀ (s : State) (there back : Target), s.tainted = false → s.len.toNat % 2 = 0 → s.detect = targetTag back →
    there ≠ back →
    ∃ t u, exec (.normalize there) s = .next t ∧ exec (.normalize back) t = .next u ∧
      t.err = .noError ∧ u.err = .noError ∧ u.order = targetTag back ∧ ∀ a, u.bufRead a = s.bufRead a

/-- 41_normalizer.md R97: at completion ORDER is the detector's result on BUF as it stands after the command, with the same
LEN, for every outcome. -/
def Obligations.NormalizeOrderIsDetected : Prop :=
  ∀ (s t : State) (tgt : Target), s.tainted = false → exec (.normalize tgt) s = .next t →
    t.order = t.detect ∧ t.len = s.len ∧
      (t.err = .unknownOrdering → t.order = .undetermined) ∧ (t.err = .oddLength → t.order = s.detect) ∧
      (t.err = .noError → t.order = targetTag tgt)

/-- 41_normalizer.md R98: a failing NORMALIZE leaves BUF exactly as it was. -/
def Obligations.FailedNormalizeKeepsBuf : Prop :=
  ∀ (s t : State) (tgt : Target), s.tainted = false → exec (.normalize tgt) s = .next t → t.err ≠ .noError →
    t.buf = s.buf ∧ ∀ a, t.bufRead a = s.bufRead a

/-- The frame of NORMALIZE (41_normalizer.md R89, R95): it stores to [0, LEN) at most; LEN, CSUM1, CSUM2 and all else but
ORDER, ERR and BUSY stay. -/
def Obligations.NormalizeFrame : Prop :=
  ∀ (s t : State) (tgt : Target), s.tainted = false → exec (.normalize tgt) s = .next t →
    t = { s with buf := t.buf, order := t.order, err := t.err, busy := false, latency := 0 } ∧
      (∀ a, s.len.toNat ≤ a → t.bufRead a = s.bufRead a) ∧
      (s.detect = .undetermined ∨ s.len.toNat % 2 = 1 ∨ s.detect = targetTag tgt → ∀ a, t.bufRead a = s.bufRead a)

/-! CHECKSUM -/

/-- 42_checksum.md R101, R116: a short buffer fails with NOT_LONG_ENOUGH whatever READ_FAIL says; no accumulator, CSUM1 or CSUM2
is written. -/
def Obligations.ChecksumRefusesShortBuffer : Prop :=
  ∀ s : State, s.tainted = false → s.len.toNat < 0x101000 →
    exec .checksum s = .next { s with err := .notLongEnough, busy := false, latency := 0 }

/-- 42_checksum.md R115: with the length check passed and some window byte unreadable it fails with READ_ERROR; CSUM1 and CSUM2
keep their values. Where READ_FAIL is false everywhere it never does. -/
def Obligations.ChecksumReportsReadError : Prop :=
  (∀ s : State, s.tainted = false → 0x101000 ≤ s.len.toNat →
      (∃ a, 0x1000 ≤ a ∧ a < 0x101000 ∧ s.build.fails a = true) →
      exec .checksum s = .next { s with err := .readError, busy := false, latency := 0 }) ∧
    ∀ s t : State, s.tainted = false → (∀ a, s.build.fails a = false) → exec .checksum s = .next t →
      t.err ≠ .readError

/-- 42_checksum.md R100–R113: otherwise CSUM1 and CSUM2 become the pair of the recurrence over the window's words in order, ERR is
0 and BUSY is cleared. LEN, LOST, ORDER, BUF and all else stay, but for the accumulators and WIDX, which are unspecified between
commands (10_state.md R34; notes/assumptions/13.md). Whatever the magic (R117). -/
def Obligations.ChecksumIsTheRecurrence : Prop :=
  ∀ s : State, checksumReady s →
    ∃ t, exec .checksum s = .next t ∧ (t.csum1, t.csum2) = checksumPair (windowWords s) ∧
      t =
        { s with
          csum1 := t.csum1, csum2 := t.csum2, err := .noError, busy := false, latency := 0
          acc := t.acc, widx := t.widx, draws := t.draws }

/-- 42_checksum.md R104–R111: one ACC_STEP is the step of the recurrence, sub-step by sub-step. -/
def Obligations.AccStepFollowsSubSteps : Prop :=
  ∀ (a : Acc) (c1 : Word), accStep c1 a = accNext a c1

/-- 42_checksum.md R120: t4 is SEED plus the number of carries, modulo 2^32. -/
def Obligations.T4CountsCarries : Prop :=
  ∀ (s : State) (n : Nat),
    (accLoop s n 0 accInit).t4.toNat =
      (0xF8CA4DDC +
          (List.range n).countP fun i =>
            decide (2 ^ 32 ≤ (accLoop s i 0 accInit).t6.toNat + (s.windowWord i).toNat)) % 2 ^ 32

/-- 42_checksum.md R121: the pair of an all-zero window. -/
def Obligations.AllZeroWindowChecksum : Prop :=
  ∀ s : State, checksumReady s → (∀ a, 0x1000 ≤ a → a < 0x101000 → s.bufRead a = 0#8) →
    ∃ t, exec .checksum s = .next t ∧ t.csum1 = 0xF8CA4DDC#32 ∧ t.csum2 = 0x303A4DDC#32

/-- 42_checksum.md R119, R102: the pair is a function of the window bytes alone. -/
def Obligations.ChecksumDependsOnWindowOnly : Prop :=
  ∀ s u : State, checksumReady s → checksumReady u →
    (∀ a, 0x1000 ≤ a → a < 0x101000 → s.bufRead a = u.bufRead a) →
    ∃ t v, exec .checksum s = .next t ∧ exec .checksum u = .next v ∧ t.csum1 = v.csum1 ∧ t.csum2 = v.csum2

/-- 42_checksum.md R114 and the vectors V-CS-ORD-a and V-CS-ORD-b: windows that begin with 1, 2 and with 2, 1, all other words 0,
give different checksum2 values. -/
def Obligations.WordOrderMatters : Prop :=
  ∀ s : State, checksumReady s → (∀ i, 2 ≤ i → i < 0x40000 → s.windowWord i = 0#32) →
    (s.windowWord 0 = 1#32 → s.windowWord 1 = 2#32 →
        ∃ t, exec .checksum s = .next t ∧ t.csum1 = 0xF8CA4DDC#32 ∧ t.csum2 = 0x30624DE3#32) ∧
      (s.windowWord 0 = 2#32 → s.windowWord 1 = 1#32 →
        ∃ t, exec .checksum s = .next t ∧ t.csum1 = 0xF8CA4DDC#32 ∧ t.csum2 = 0x30624DED#32)

/-! Commands together -/

/-- The frame of the commands that store nothing, DETECT and CHECKSUM (40_detector.md R82; 42_checksum.md R118): LEN, LOST,
CMDL, FAULT, the parameters and every BUF byte stay; DETECT leaves CSUM1, CSUM2, the accumulators and WIDX; CHECKSUM leaves
ORDER, and where it fails CSUM1, CSUM2, the accumulators and WIDX. -/
def Obligations.StorelessFrame : Prop :=
  ∀ (i : Instr) (s t : State), (i = .detect ∨ i = .checksum) → s.tainted = false → exec i s = .next t →
    t.len = s.len ∧ t.lost = s.lost ∧ t.cmdl = s.cmdl ∧ t.fault = s.fault ∧ t.build = s.build ∧
      t.events = s.events ∧ t.vars = s.vars ∧ t.buf = s.buf ∧ (∀ a, t.bufRead a = s.bufRead a) ∧
      (i = .checksum → t.order = s.order) ∧
      (i = .detect ∨ t.err ≠ .noError →
        t.csum1 = s.csum1 ∧ t.csum2 = s.csum2 ∧ t.acc = s.acc ∧ t.widx = s.widx)

/-- What every command leaves: LEN, LOST, CMDL, FAULT, the parameters and HOST's side (10_state.md R29, R31). That they stay even
where HOST changed the command's inputs, whose results 70_reset_and_hazards.md R148 leaves unspecified, is the model's
notes/assumptions/11.md. -/
def Obligations.EveryCommandFrame : Prop :=
  ∀ (i : Instr) (s : State), ∃ t, exec i s = .next t ∧
    t.len = s.len ∧ t.lost = s.lost ∧ t.cmdl = s.cmdl ∧ t.fault = s.fault ∧ t.build = s.build ∧
      t.events = s.events ∧ t.vars = s.vars ∧ t.busy = false ∧ t.tainted = false

/-- Which command can end with which code (60_exceptions.md R124); that the codes stay so where HOST changed the command's inputs is
the model's notes/assumptions/11.md. ERR is written by a completion, by an accept and by reset, and keeps its value over every
other step (10_state.md R27; 60_exceptions.md R131). -/
def Obligations.CodesByCommand : Prop :=
  ∀ s t : State,
    (exec .detect s = .next t → t.err = .noError) ∧
      (∀ tgt, exec (.normalize tgt) s = .next t →
        t.err = .noError ∨ t.err = .unknownOrdering ∨ t.err = .oddLength) ∧
      (exec .checksum s = .next t → t.err = .noError ∨ t.err = .notLongEnough ∨ t.err = .readError) ∧
      (∀ why, decode s.cmdl = .illegal why → engineStep s = .next t → t.err = .illegalCommand) ∧
      (step s = .next t →
        t.err = s.err ∨ s.engineTurn = true ∨
          (t.err = .noError ∧ s.busy = false ∧ ∃ v rest, s.events = .wr 0x00#32 .w32 v :: rest) ∨
          (t.err = .noError ∧ s.engineTurn = false ∧ ∃ rest, s.events = .reset :: rest))

/-- 60_exceptions.md R132: the same LEN, BUF, READ_FAIL and command give the same code. -/
def Obligations.ErrorsAreDeterministic : Prop :=
  ∀ (i : Instr) (s u : State), s.tainted = false → u.tainted = false → s.len = u.len →
    s.build.readFail = u.build.readFail → (∀ a, s.bufRead a = u.bufRead a) →
    ∃ t v, exec i s = .next t ∧ exec i u = .next v ∧ t.err = v.err

/-! HOST -/

/-- 10_state.md R30: accept. `tainted`, `latency`, `draws` and `events` are the model's own. -/
def Obligations.AcceptLatchesCommand : Prop :=
  ∀ (s : State) (v : WordVal) (rest : List Event), s.busy = false → s.events = .wr 0x00#32 .w32 v :: rest →
    ∃ n, step s =
      .next
        { s with
          cmdl := v.eval s, lost := false, err := .noError, busy := true
          tainted := false, latency := n, draws := s.draws + 1, events := rest }

/-- 10_state.md R26: a CMD write while BUSY = 1 sets LOST and changes nothing else; LOST is cleared by the next accepted CMD write
and by reset, and written by nothing else. -/
def Obligations.CmdWriteWhileBusyIsLost : Prop :=
  (∀ (s : State) (v : WordVal) (rest : List Event), s.busy = true → hostNext s (.wr 0x00#32 .w32 v) rest →
      step s = .next { taken s rest with lost := true }) ∧
    (∀ (s t : State) (rest : List Event), hostNext s .reset rest → step s = .next t → t.lost = false) ∧
    (∀ (s t : State) (v : WordVal) (rest : List Event), s.busy = false → s.events = .wr 0x00#32 .w32 v :: rest →
      step s = .next t → t.lost = false) ∧
    ∀ s t : State, step s = .next t →
      t.lost = s.lost ∨
        (s.engineTurn = false ∧ ∃ e rest, s.events = e :: rest ∧ (e = .reset ∨ ∃ v, e = .wr 0x00#32 .w32 v))

/-- 10_state.md R29: a LEN write stores min(v, BUF_CAP) and a read returns the stored value; while BUSY = 1 the write sets FAULT
and the command's results are then unspecified; no command writes LEN. That the value is stored while BUSY = 1 too is the model's
notes/assumptions/12.md, and which results are then free is its notes/assumptions/11.md. -/
def Obligations.LenIsClamped : Prop :=
  (∀ (s : State) (v : WordVal) (rest : List Event), s.build.wf = true → hostNext s (.wr 0x08#32 .w32 v) rest →
      ∃ t, step s = .next t ∧ t.len.toNat = min (v.eval s).toNat s.build.bufCap ∧
        t = { taken s rest with len := t.len, fault := s.fault || s.busy, tainted := s.tainted || s.busy }) ∧
    (∀ (s : State) (x : Nat) (rest : List Event), hostNext s (.rd 0x08#32 .w32 x) rest →
      ∃ t, step s = .next t ∧ readInto s t x s.len ∧ t = { taken s rest with vars := t.vars }) ∧
    (∀ s t : State, s.engineTurn = true → step s = .next t → t.len = s.len) ∧
    ∀ s : State, s.tainted = true → resultsFree s

/-- 10_state.md R24: the layout of STATUS as HOST reads it, with no side effect while BUSY = 0 (while BUSY = 1 the model uses up a
free value); HOST's writes to it are ignored; and the codes of ERR (R27; 60_exceptions.md R123). -/
def Obligations.StatusLayout : Prop :=
  (∀ (s : State) (x : Nat) (rest : List Event), hostNext s (.rd 0x04#32 .w32 x) rest →
      ∃ t, step s = .next t ∧
        t = { taken s rest with vars := t.vars, draws := if s.busy then s.draws + 1 else s.draws } ∧
        (∀ y, y ≠ x → t.varValue y = s.varValue y) ∧
        (t.varValue x).getLsbD 0 = s.busy ∧ (t.varValue x).getLsbD 1 = s.lost ∧
        (t.varValue x).extractLsb' 2 2 = 0#2 ∧ (t.varValue x).extractLsb' 10 22 = 0#22 ∧
        (s.busy = false →
          (t.varValue x).extractLsb' 4 4 = s.err.code ∧ (t.varValue x).extractLsb' 8 2 = s.order.code)) ∧
    (∀ (s : State) (v : WordVal) (rest : List Event), hostNext s (.wr 0x04#32 .w32 v) rest →
      step s = .next (taken s rest)) ∧
    ErrCode.code .noError = 0#4 ∧ ErrCode.code .unknownOrdering = 1#4 ∧ ErrCode.code .oddLength = 2#4 ∧
    ErrCode.code .notLongEnough = 3#4 ∧ ErrCode.code .readError = 4#4 ∧ ErrCode.code .illegalCommand = 5#4

/-- 10_state.md R39: reads while BUSY = 1. BUSY reads 1, ERR 0, LOST and LEN their values; CSUM1, CSUM2 and ORDER read free values;
CMD reads 0 (R23); no read sets FAULT or changes a register. -/
def Obligations.ReadsWhileBusy : Prop :=
  ∀ (s : State) (x : Nat) (rest : List Event), s.busy = true →
    (hostNext s (.rd 0x04#32 .w32 x) rest →
        ∃ t o, step s = .next t ∧ readInto s t x (statusWord true s.lost 0#4 o) ∧
          t = { taken s rest with vars := t.vars, draws := s.draws + 1 }) ∧
      (hostNext s (.rd 0x08#32 .w32 x) rest →
        ∃ t, step s = .next t ∧ readInto s t x s.len ∧ t = { taken s rest with vars := t.vars }) ∧
      (∀ off, off = 0x0C#32 ∨ off = 0x10#32 → hostNext s (.rd off .w32 x) rest →
        ∃ t, step s = .next t ∧ readInto s t x (Config.freeWord s.draws 0) ∧
          t = { taken s rest with vars := t.vars, draws := s.draws + 1 }) ∧
      (hostNext s (.rd 0x00#32 .w32 x) rest →
        ∃ t, step s = .next t ∧ readInto s t x 0#32 ∧ t = { taken s rest with vars := t.vars })

/-- 10_state.md R22, R23, R32, R33: reads while BUSY = 0 of CMD (0), CSUM1, CSUM2 and the reserved slots (0), with no side effect
(20_memory.md R57). -/
def Obligations.ReadsWhileIdle : Prop :=
  ∀ (s : State) (off : Word) (x : Nat) (rest : List Event), s.busy = false → off.toNat % 4 = 0 →
    off.toNat < 0x40 → s.events = .rd off .w32 x :: rest →
    ∃ t, step s = .next t ∧ t = { taken s rest with vars := t.vars } ∧ (∀ y, y ≠ x → t.varValue y = s.varValue y) ∧
      (off = 0x00#32 → t.varValue x = 0#32) ∧ (off = 0x0C#32 → t.varValue x = s.csum1) ∧
      (off = 0x10#32 → t.varValue x = s.csum2) ∧ (0x14 ≤ off.toNat → t.varValue x = 0#32)

/-- 10_state.md R33: the reserved slots 0x14..0x3C read 0 and ignore writes, BUSY or not; neither has a side effect. -/
def Obligations.ReservedSlotsReadZero : Prop :=
  ∀ (s : State) (off : Word) (rest : List Event), off.toNat % 4 = 0 → 0x14 ≤ off.toNat → off.toNat ≤ 0x3C →
    (∀ x, hostNext s (.rd off .w32 x) rest →
        ∃ t, step s = .next t ∧ readInto s t x 0#32 ∧ t = { taken s rest with vars := t.vars }) ∧
      ∀ v, hostNext s (.wr off .w32 v) rest → step s = .next (taken s rest)

/-- 10_state.md R24, R32, R33: writes to STATUS, CSUM1, CSUM2 and the reserved slots are ignored. -/
def Obligations.ReadOnlyRegistersIgnoreWrites : Prop :=
  ∀ (s : State) (off : Word) (v : WordVal) (rest : List Event), off.toNat % 4 = 0 → off.toNat < 0x40 →
    off ≠ 0x00#32 → off ≠ 0x08#32 → hostNext s (.wr off .w32 v) rest → step s = .next (taken s rest)

/-- 20_memory.md R55, R56: a register access that is not 32 bits wide, not aligned, or at or above 0x40 sets FAULT. That it changes
nothing else at 0x40 and above too, and that HOST's variable of such a read keeps its value, is the model's
notes/assumptions/14.md; that it leaves a running command alone is its notes/assumptions/15.md. -/
def Obligations.MalformedRegisterAccessFaults : Prop :=
  ∀ (s : State) (off : Word) (width : Width) (rest : List Event),
    (width ≠ .w32 ∨ off.toNat % 4 ≠ 0 ∨ 0x40 ≤ off.toNat) →
    (∀ v, hostNext s (.wr off width v) rest → step s = .next { taken s rest with fault := true }) ∧
      ∀ x, hostNext s (.rd off width x) rest → step s = .next { taken s rest with fault := true }

/-- 20_memory.md R53: a byte access at or above BUF_CAP sets FAULT and changes nothing else. That HOST's variable of such a read
keeps its value is the model's notes/assumptions/14.md; that such a write while BUSY = 1 leaves the running command's results alone,
though 70_reset_and_hazards.md R148 speaks of every BUF byte write, is its notes/assumptions/15.md. -/
def Obligations.BufAccessOutOfRangeFaults : Prop :=
  ∀ (s : State) (a : Word) (rest : List Event), s.build.bufCap ≤ a.toNat →
    (∀ v, hostNext s (.wrb a v) rest → step s = .next { taken s rest with fault := true }) ∧
      ∀ x, hostNext s (.rdb a x) rest → step s = .next { taken s rest with fault := true }

/-- 20_memory.md R47, R48, R51, R57, R61: a HOST byte write while BUSY = 0 stores the byte and no other, whatever is to come
after it, and a HOST byte read that follows returns it; every HOST byte read while BUSY = 0, whatever wrote the byte, returns the byte that stands there, widened with
zeros (00_scope.md R17), and changes nothing else. -/
def Obligations.HostByteWriteThenRead : Prop :=
  (∀ (s : State) (a : Word) (v : Byte) (rest : List Event), s.busy = false → a.toNat < s.build.bufCap →
      s.events = .wrb a (.imm v) :: rest →
      ∃ t, step s = .next t ∧ t.bufRead a.toNat = v ∧ (∀ b, b ≠ a.toNat → t.bufRead b = s.bufRead b) ∧
        t = { taken s rest with buf := t.buf }) ∧
    (∀ (s : State) (a : Word) (v : Byte) (x : Nat) (rest : List Event), s.busy = false → a.toNat < s.build.bufCap →
      s.events = .wrb a (.imm v) :: .rdb a x :: rest →
      ∃ t u, step s = .next t ∧ step t = .next u ∧
        t.bufRead a.toNat = v ∧ (∀ b, b ≠ a.toNat → t.bufRead b = s.bufRead b) ∧
        t = { taken s (.rdb a x :: rest) with buf := t.buf } ∧
        readInto t u x (v.setWidth 32) ∧ u = { taken t rest with vars := u.vars }) ∧
    ∀ (s : State) (a : Word) (x : Nat) (rest : List Event), s.busy = false → a.toNat < s.build.bufCap →
      s.events = .rdb a x :: rest →
      ∃ t, step s = .next t ∧ readInto s t x ((s.bufRead a.toNat).setWidth 32) ∧
        t = { taken s rest with vars := t.vars }

/-- 20_memory.md R58, 30_encoding.md R81: a byte write of byte k of HOST's variable x stores bits [31−8k : 24−8k] of it, and no other
byte, as `patch` writes the checksum pair. -/
def Obligations.HostStoresVariableByte : Prop :=
  ∀ (s : State) (a : Word) (x : Nat) (k : Fin 4) (rest : List Event), s.busy = false → a.toNat < s.build.bufCap →
    s.events = .wrb a (.var x k) :: rest →
    ∃ t, step s = .next t ∧ (t.bufRead a.toNat).toNat = (s.varValue x).toNat / 2 ^ (24 - 8 * k.val) % 256 ∧
      (∀ b, b ≠ a.toNat → t.bufRead b = s.bufRead b) ∧ t = { taken s rest with buf := t.buf }

/-- 70_reset_and_hazards.md R148: while BUSY = 1 a BUF byte write or a LEN write sets FAULT, and the command then leaves BUF, CSUM1
and CSUM2 with free values; a BUF byte read returns a free byte and does not set FAULT. -/
def Obligations.InputChangesWhileBusy : Prop :=
  (∀ (s : State) (a : Word) (v : ByteVal) (rest : List Event), s.busy = true → a.toNat < s.build.bufCap →
      hostNext s (.wrb a v) rest →
      ∃ t, step s = .next t ∧ t = { taken s rest with buf := t.buf, fault := true, tainted := true }) ∧
    (∀ (s : State) (v : WordVal) (rest : List Event), s.busy = true → hostNext s (.wr 0x08#32 .w32 v) rest →
      ∃ t, step s = .next t ∧ t = { taken s rest with len := t.len, fault := true, tainted := true }) ∧
    (∀ (s : State) (a : Word) (x : Nat) (rest : List Event), s.busy = true → a.toNat < s.build.bufCap →
      hostNext s (.rdb a x) rest →
      ∃ t, step s = .next t ∧ readInto s t x ((Config.freeByte s.draws a.toNat).setWidth 32) ∧
        t = { taken s rest with vars := t.vars, draws := s.draws + 1 }) ∧
    ∀ s : State, s.tainted = true → resultsFree s

/-- 30_encoding.md R80: `wait` reads STATUS again while BUSY = 1, and ends at the first read with bit 0 = 0. That the variable s of
R80 is not kept, so that no variable of HOST changes, is the model's notes/assumptions/7.md; the draw used up while BUSY = 1, for the
ORDER that such a read leaves open, is the model's own (notes/assumptions/17.md, 18.md). -/
def Obligations.WaitPollsBusy : Prop :=
  ∀ (s : State) (rest : List Event), hostNext s .wait rest →
    (s.busy = true → step s = .next { taken s (.wait :: rest) with draws := s.draws + 1 }) ∧
      (s.busy = false → step s = .next (taken s rest))

/-! Reset -/

/-- 70_reset_and_hazards.md R141, R142: the reset input, whatever the block is doing: the values of 10_state.md R41, every BUF byte
a free value of one new draw, FAULT unchanged; a command in flight writes none of its results and is gone. -/
def Obligations.ResetInputSetsState : Prop :=
  ∀ (s : State) (rest : List Event), hostNext s .reset rest →
    ∃ t d, step s = .next t ∧ t.busy = false ∧ t.lost = false ∧ t.err = .noError ∧ t.order = .undetermined ∧
      t.len = 0#32 ∧ t.csum1 = 0#32 ∧ t.csum2 = 0#32 ∧ t.fault = s.fault ∧ t.build = s.build ∧ t.events = rest ∧
      t.vars = s.vars ∧ t.tainted = false ∧ s.draws ≤ d ∧ d < t.draws ∧ ∀ a, t.bufRead a = Config.freeByte d a

/-- 10_state.md R41 (the values it gives) and 70_reset_and_hazards.md R144: right after reset every command sees an empty image:
DETECT gives Undetermined, NORMALIZE UNKNOWN_ORDERING, CHECKSUM NOT_LONG_ENOUGH. -/
def Obligations.CommandsRightAfterReset : Prop :=
  State.reset.len = 0#32 ∧ State.reset.busy = false ∧ State.reset.fault = false ∧
    (∃ t, step (State.reset.withFetchWord 32 0x00000001) = .next t ∧ t.order = .undetermined ∧ t.err = .noError) ∧
    (∃ t, step (State.reset.withFetchWord 32 0x00000002) = .next t ∧ t.err = .unknownOrdering) ∧
    (∃ t, step (State.reset.withFetchWord 32 0x00000102) = .next t ∧ t.err = .unknownOrdering) ∧
    ∃ t, step (State.reset.withFetchWord 32 0x00000003) = .next t ∧ t.err = .notLongEnough

/-! The whole machine -/

/-- The invariant holds at reset. -/
def Obligations.ResetMeetsInvariant : Prop :=
  State.reset.Inv

/-- Every step keeps the invariant: BUF's canonical form and bounds, LEN ≤ BUF_CAP (10_state.md R29), ERR = 0 while BUSY = 1
(R27), unspecified results only under FAULT (70_reset_and_hazards.md R148). -/
def Obligations.StepKeepsInvariant : Prop :=
  ∀ s t : State, s.Inv → step s = .next t → t.Inv

/-- 10_state.md R40 and 60_exceptions.md R136: FAULT is set exactly by HOST's protocol violations, never cleared, and no register
shows it; a state with FAULT = 1 is not safe. -/
def Obligations.FaultMarksViolations : Prop :=
  (∀ s t : State, step s = .next t →
      (t.fault = true ↔
        s.fault = true ∨ (s.engineTurn = false ∧ ∃ e rest, s.events = e :: rest ∧ violates s e))) ∧
    (∀ (s : State) (b : Bool) (off : Word), (State.regRead off { s with fault := b }).1 = (s.regRead off).1) ∧
    ∀ s : State, s.fault = true → s.safe = false

/-- 10_state.md R25: BUSY is set by an accept, cleared by a completion or by reset, and written by nothing else. -/
def Obligations.BusyWrittenByLifecycleOnly : Prop :=
  ∀ s t : State, step s = .next t →
    (s.busy = false →
        (t.busy = true ↔ ∃ v rest, s.events = .wr 0x00#32 .w32 v :: rest)) ∧
      (s.busy = true →
        (t.busy = false ↔ s.engineTurn = true ∨ ∃ rest, s.events = .reset :: rest))

/-- 10_state.md R32: CSUM1 and CSUM2 change only where a CHECKSUM completes with ERR = 0, where reset is asserted, or where a
command completes whose inputs HOST changed (70_reset_and_hazards.md R148). -/
def Obligations.OnlyChecksumWritesPair : Prop :=
  ∀ s t : State, step s = .next t →
    (t.csum1 = s.csum1 ∧ t.csum2 = s.csum2) ∨
      (s.engineTurn = true ∧ decode s.cmdl = .legal .checksum ∧ t.err = .noError) ∨
      (s.engineTurn = true ∧ s.tainted = true) ∨
      (s.engineTurn = false ∧ ∃ rest, s.events = .reset :: rest)

/-- 10_state.md R34, R36: the accumulators and WIDX are written only where a CHECKSUM completes or reset is asserted. That they are
kept between commands otherwise, where R34 leaves them unspecified, is the model's notes/assumptions/13.md. -/
def Obligations.OnlyChecksumWritesAccumulators : Prop :=
  ∀ s t : State, step s = .next t →
    (t.acc = s.acc ∧ t.widx = s.widx) ∨
      (s.engineTurn = true ∧ decode s.cmdl = .legal .checksum) ∨
      (s.engineTurn = false ∧ ∃ rest, s.events = .reset :: rest)

/-- 10_state.md R28, R38: ORDER is latched: it changes only where DETECT or NORMALIZE completes or reset is asserted, never by a
HOST write; and it is then the detector's result on BUF as it stands at completion. -/
def Obligations.OrderIsLatched : Prop :=
  (∀ s t : State, step s = .next t →
      t.order = s.order ∨
        (s.engineTurn = true ∧ (decode s.cmdl = .legal .detect ∨ ∃ tgt, decode s.cmdl = .legal (.normalize tgt))) ∨
        (s.engineTurn = false ∧ ∃ rest, s.events = .reset :: rest)) ∧
    (∀ (s t : State) (i : Instr), s.tainted = false → i ≠ .checksum → exec i s = .next t → t.order = t.detect) ∧
    OrderTag.code .undetermined = 0#2 ∧ OrderTag.code .native = 1#2 ∧ OrderTag.code .u16LittleEndian = 2#2

/-- BUF changes only where HOST writes a byte, where a NORMALIZE completes, where a command completes whose inputs HOST changed, or
where reset is asserted (20_memory.md R48; 70_reset_and_hazards.md R142, R148). -/
def Obligations.BufWrittenOnlyBy : Prop :=
  ∀ s t : State, step s = .next t →
    (∀ a, t.bufRead a = s.bufRead a) ∨
      (s.engineTurn = true ∧ ∃ tgt, decode s.cmdl = .legal (.normalize tgt)) ∨
      (s.engineTurn = true ∧ s.tainted = true) ∨
      (s.engineTurn = false ∧
        ∃ e rest, s.events = e :: rest ∧ (e = .reset ∨ ∃ a v, e = .wrb a v ∧ ∀ b, b ≠ a.toNat → t.bufRead b = s.bufRead b))

/-- CMDL holds the last accepted command: it changes only by an accept or by reset (10_state.md R35; 20_memory.md R65). -/
def Obligations.CommandLatchedUntilAccept : Prop :=
  ∀ s t : State, step s = .next t →
    t.cmdl = s.cmdl ∨ (s.busy = false ∧ ∃ v rest, s.events = .wr 0x00#32 .w32 v :: rest ∧ t.cmdl = v.eval s) ∨
      (s.engineTurn = false ∧ ∃ rest, s.events = .reset :: rest)

/-- BUF_CAP and READ_FAIL are parameters: no step changes them (00_scope.md R10; 10_state.md R20). -/
def Obligations.ParametersNeverChange : Prop :=
  ∀ s t : State, step s = .next t → t.build = s.build
end

