-- ==== Sys2Proof/Laws/Config.lean ====
section
/-!
SUPPORT. All that is known of the open parameters: the bounds of BUF_CAP.
-/
namespace Sys2Proof

/-- 0x101000 ≤ BUF_CAP ≤ 0xFFFFFFFF (00_scope.md R10). -/
theorem Config.bufCap_bounds : 0x101000 ≤ Config.bufCap ∧ Config.bufCap ≤ 0xFFFFFFFF := by
  have h : Config.bufCapAbove.val < 4293914624 := Config.bufCapAbove.isLt
  unfold Config.bufCap
  omega

theorem Config.build_wf : Config.build.wf = true := by
  show (decide (0x101000 ≤ Config.bufCap) && decide (Config.bufCap ≤ 0xFFFFFFFF)) = true
  rw [decide_eq_true Config.bufCap_bounds.1, decide_eq_true Config.bufCap_bounds.2]
  rfl

end Sys2Proof
end

