-- ==== Sys2Proof/Laws/Flags.lean ====
section
/-!
SUPPORT. The fields of the STATUS word (10_state.md R24).
-/
namespace Sys2Proof.Machine

theorem statusWord_busy (b l : Bool) (e : BitVec 4) (o : BitVec 2) : (statusWord b l e o).getLsbD 0 = b := by
  revert b l e o; decide

theorem statusWord_lost (b l : Bool) (e : BitVec 4) (o : BitVec 2) : (statusWord b l e o).getLsbD 1 = l := by
  revert b l e o; decide

theorem statusWord_err (b l : Bool) (e : BitVec 4) (o : BitVec 2) : (statusWord b l e o).extractLsb' 4 4 = e := by
  revert b l e o; decide

theorem statusWord_order (b l : Bool) (e : BitVec 4) (o : BitVec 2) : (statusWord b l e o).extractLsb' 8 2 = o := by
  revert b l e o; decide

theorem statusWord_reserved (b l : Bool) (e : BitVec 4) (o : BitVec 2) :
    (statusWord b l e o).extractLsb' 2 2 = 0#2 ∧ (statusWord b l e o).extractLsb' 10 22 = 0#22 := by
  revert b l e o; decide

end Sys2Proof.Machine
end

