-- ==== Sys2Proof/Laws/Sparse.lean ====
section
/-!
SUPPORT. The laws of sparse data: what an update finds, and that it keeps the canonical form.
-/
namespace Sys2Proof.Machine

theorem sparseFind_insert_same {β : Type} (k : Nat) (v : β) (l : List (Nat × β)) :
    sparseFind k (sparseInsert k v l) = some v := by
  induction l with
  | nil => simp [sparseInsert, sparseFind]
  | cons c rest ih =>
    simp only [sparseInsert]
    split
    · simp [sparseFind]
    · split
      · simp [sparseFind]
      · rename_i h
        simp [sparseFind, Ne.symm h, ih]

theorem sparseFind_insert_ne {β : Type} {j k : Nat} (h : j ≠ k) (v : β) (l : List (Nat × β)) :
    sparseFind j (sparseInsert k v l) = sparseFind j l := by
  induction l with
  | nil => simp [sparseInsert, sparseFind, Ne.symm h]
  | cons c rest ih =>
    simp only [sparseInsert]
    split
    · simp [sparseFind, Ne.symm h]
    · split
      · rename_i hk
        subst hk
        simp [sparseFind, Ne.symm h]
      · simp [sparseFind, ih]

theorem sparseRisingFrom_insert {β : Type} {lo k : Nat} (v : β) {l : List (Nat × β)} (hk : lo ≤ k)
    (h : sparseRisingFrom lo l = true) : sparseRisingFrom lo (sparseInsert k v l) = true := by
  induction l generalizing lo with
  | nil => simp [sparseInsert, sparseRisingFrom, hk]
  | cons c rest ih =>
    simp only [sparseRisingFrom, Bool.and_eq_true, decide_eq_true_eq] at h
    simp only [sparseInsert]
    split
    · rename_i hlt
      simp only [sparseRisingFrom, Bool.and_eq_true, decide_eq_true_eq]
      exact ⟨hk, hlt, h.2⟩
    · split
      · rename_i heq
        simp only [sparseRisingFrom, Bool.and_eq_true, decide_eq_true_eq]
        exact ⟨hk, heq ▸ h.2⟩
      · simp only [sparseRisingFrom, Bool.and_eq_true, decide_eq_true_eq]
        exact ⟨h.1, ih (by omega) h.2⟩

theorem sparseBelow_insert {β : Type} {hi k : Nat} (v : β) {l : List (Nat × β)} (hk : k < hi)
    (h : sparseBelow hi l = true) : sparseBelow hi (sparseInsert k v l) = true := by
  induction l with
  | nil => simp [sparseInsert, sparseBelow, hk]
  | cons c rest ih =>
    simp only [sparseBelow, Bool.and_eq_true, decide_eq_true_eq] at h
    simp only [sparseInsert]
    split
    · simp [sparseBelow, hk, h.1, h.2]
    · split
      · simp [sparseBelow, hk, h.2]
      · simp [sparseBelow, h.1, ih h.2]

/-- Memories in canonical form that list the same bytes are the same data. -/
theorem sparse_ext {β : Type} {lo : Nat} {l m : List (Nat × β)} (hl : sparseRisingFrom lo l = true)
    (hm : sparseRisingFrom lo m = true) (h : ∀ k, sparseFind k l = sparseFind k m) : l = m := by
  have low : ∀ {lo : Nat} {l : List (Nat × β)} {k : Nat}, sparseRisingFrom lo l = true → k < lo →
      sparseFind k l = none := by
    intro lo l
    induction l generalizing lo with
    | nil => intros; rfl
    | cons c rest ih =>
      intro k hr hk
      simp only [sparseRisingFrom, Bool.and_eq_true, decide_eq_true_eq] at hr
      have hne : c.1 ≠ k := by omega
      simp [sparseFind, hne, ih hr.2 (by omega : k < c.1 + 1)]
  induction l generalizing lo m with
  | nil =>
    cases m with
    | nil => rfl
    | cons d r => have := h d.1; simp [sparseFind] at this
  | cons c rest ih =>
    cases m with
    | nil => have := h c.1; simp [sparseFind] at this
    | cons d r =>
      simp only [sparseRisingFrom, Bool.and_eq_true, decide_eq_true_eq] at hl hm
      have hcd : c.1 = d.1 := by
        rcases Nat.lt_trichotomy c.1 d.1 with hlt | heq | hgt
        · have := h c.1
          have hne : d.1 ≠ c.1 := by omega
          simp [sparseFind, hne, low hm.2 (by omega : c.1 < d.1 + 1)] at this
        · exact heq
        · have := h d.1
          have hne : c.1 ≠ d.1 := by omega
          simp [sparseFind, hne, low hl.2 (by omega : d.1 < c.1 + 1)] at this
      have hv : c.2 = d.2 := by have := h c.1; simpa [sparseFind, hcd] using this
      have htail : rest = r := by
        refine ih hl.2 (hcd ▸ hm.2) (fun k => ?_)
        by_cases hk : k = c.1
        · subst hk
          rw [low hl.2 (by omega), low (hcd ▸ hm.2) (by omega : c.1 < c.1 + 1)]
        · have := h k
          have h1 : c.1 ≠ k := Ne.symm hk
          have h2 : d.1 ≠ k := hcd ▸ h1
          simpa [sparseFind, h1, h2] using this
      rw [htail, show c = d from Prod.ext hcd hv]

end Sys2Proof.Machine
end

