-- ==== Sys2Proof/Laws/State.lean ====
section
/-!
SUPPORT. One lemma per field and named update of State: what the field holds after the update. Each holds by unfolding; the
parentheses around its proof keep simp to rewriting, so that the kernel need not compare two states whose fields hold the
window recurrence.
-/
namespace Sys2Proof.Machine

variable (s : State)

/-! bufWrite -/

@[simp] theorem State.bufWrite_busy (a : Nat) (v : Byte) : (s.bufWrite a v).busy = s.busy := (rfl)
@[simp] theorem State.bufWrite_lost (a : Nat) (v : Byte) : (s.bufWrite a v).lost = s.lost := (rfl)
@[simp] theorem State.bufWrite_err (a : Nat) (v : Byte) : (s.bufWrite a v).err = s.err := (rfl)
@[simp] theorem State.bufWrite_order (a : Nat) (v : Byte) : (s.bufWrite a v).order = s.order := (rfl)
@[simp] theorem State.bufWrite_len (a : Nat) (v : Byte) : (s.bufWrite a v).len = s.len := (rfl)
@[simp] theorem State.bufWrite_csum1 (a : Nat) (v : Byte) : (s.bufWrite a v).csum1 = s.csum1 := (rfl)
@[simp] theorem State.bufWrite_csum2 (a : Nat) (v : Byte) : (s.bufWrite a v).csum2 = s.csum2 := (rfl)
@[simp] theorem State.bufWrite_cmdl (a : Nat) (v : Byte) : (s.bufWrite a v).cmdl = s.cmdl := (rfl)
@[simp] theorem State.bufWrite_acc (a : Nat) (v : Byte) : (s.bufWrite a v).acc = s.acc := (rfl)
@[simp] theorem State.bufWrite_widx (a : Nat) (v : Byte) : (s.bufWrite a v).widx = s.widx := (rfl)
@[simp] theorem State.bufWrite_buf (a : Nat) (v : Byte) : (s.bufWrite a v).buf = sparseInsert a v s.buf := (rfl)
@[simp] theorem State.bufWrite_fault (a : Nat) (v : Byte) : (s.bufWrite a v).fault = s.fault := (rfl)
@[simp] theorem State.bufWrite_build (a : Nat) (v : Byte) : (s.bufWrite a v).build = s.build := (rfl)
@[simp] theorem State.bufWrite_bufDraw (a : Nat) (v : Byte) : (s.bufWrite a v).bufDraw = s.bufDraw := (rfl)
@[simp] theorem State.bufWrite_draws (a : Nat) (v : Byte) : (s.bufWrite a v).draws = s.draws := (rfl)
@[simp] theorem State.bufWrite_tainted (a : Nat) (v : Byte) : (s.bufWrite a v).tainted = s.tainted := (rfl)
@[simp] theorem State.bufWrite_latency (a : Nat) (v : Byte) : (s.bufWrite a v).latency = s.latency := (rfl)
@[simp] theorem State.bufWrite_events (a : Nat) (v : Byte) : (s.bufWrite a v).events = s.events := (rfl)
@[simp] theorem State.bufWrite_vars (a : Nat) (v : Byte) : (s.bufWrite a v).vars = s.vars := (rfl)

/-! forgetBuf -/

@[simp] theorem State.forgetBuf_busy : (s.forgetBuf).busy = s.busy := (rfl)
@[simp] theorem State.forgetBuf_lost : (s.forgetBuf).lost = s.lost := (rfl)
@[simp] theorem State.forgetBuf_err : (s.forgetBuf).err = s.err := (rfl)
@[simp] theorem State.forgetBuf_order : (s.forgetBuf).order = s.order := (rfl)
@[simp] theorem State.forgetBuf_len : (s.forgetBuf).len = s.len := (rfl)
@[simp] theorem State.forgetBuf_csum1 : (s.forgetBuf).csum1 = s.csum1 := (rfl)
@[simp] theorem State.forgetBuf_csum2 : (s.forgetBuf).csum2 = s.csum2 := (rfl)
@[simp] theorem State.forgetBuf_cmdl : (s.forgetBuf).cmdl = s.cmdl := (rfl)
@[simp] theorem State.forgetBuf_acc : (s.forgetBuf).acc = s.acc := (rfl)
@[simp] theorem State.forgetBuf_widx : (s.forgetBuf).widx = s.widx := (rfl)
@[simp] theorem State.forgetBuf_buf : (s.forgetBuf).buf = [] := (rfl)
@[simp] theorem State.forgetBuf_fault : (s.forgetBuf).fault = s.fault := (rfl)
@[simp] theorem State.forgetBuf_build : (s.forgetBuf).build = s.build := (rfl)
@[simp] theorem State.forgetBuf_bufDraw : (s.forgetBuf).bufDraw = s.draws := (rfl)
@[simp] theorem State.forgetBuf_draws : (s.forgetBuf).draws = s.draws + 1 := (rfl)
@[simp] theorem State.forgetBuf_tainted : (s.forgetBuf).tainted = s.tainted := (rfl)
@[simp] theorem State.forgetBuf_latency : (s.forgetBuf).latency = s.latency := (rfl)
@[simp] theorem State.forgetBuf_events : (s.forgetBuf).events = s.events := (rfl)
@[simp] theorem State.forgetBuf_vars : (s.forgetBuf).vars = s.vars := (rfl)

/-! releaseAcc -/

@[simp] theorem State.releaseAcc_busy : (s.releaseAcc).busy = s.busy := (rfl)
@[simp] theorem State.releaseAcc_lost : (s.releaseAcc).lost = s.lost := (rfl)
@[simp] theorem State.releaseAcc_err : (s.releaseAcc).err = s.err := (rfl)
@[simp] theorem State.releaseAcc_order : (s.releaseAcc).order = s.order := (rfl)
@[simp] theorem State.releaseAcc_len : (s.releaseAcc).len = s.len := (rfl)
@[simp] theorem State.releaseAcc_csum1 : (s.releaseAcc).csum1 = s.csum1 := (rfl)
@[simp] theorem State.releaseAcc_csum2 : (s.releaseAcc).csum2 = s.csum2 := (rfl)
@[simp] theorem State.releaseAcc_cmdl : (s.releaseAcc).cmdl = s.cmdl := (rfl)
@[simp] theorem State.releaseAcc_acc : (s.releaseAcc).acc = freeAcc s.draws := (rfl)
@[simp] theorem State.releaseAcc_widx : (s.releaseAcc).widx = (Config.freeWord s.draws 7).setWidth 18 := (rfl)
@[simp] theorem State.releaseAcc_buf : (s.releaseAcc).buf = s.buf := (rfl)
@[simp] theorem State.releaseAcc_fault : (s.releaseAcc).fault = s.fault := (rfl)
@[simp] theorem State.releaseAcc_build : (s.releaseAcc).build = s.build := (rfl)
@[simp] theorem State.releaseAcc_bufDraw : (s.releaseAcc).bufDraw = s.bufDraw := (rfl)
@[simp] theorem State.releaseAcc_draws : (s.releaseAcc).draws = s.draws + 1 := (rfl)
@[simp] theorem State.releaseAcc_tainted : (s.releaseAcc).tainted = s.tainted := (rfl)
@[simp] theorem State.releaseAcc_latency : (s.releaseAcc).latency = s.latency := (rfl)
@[simp] theorem State.releaseAcc_events : (s.releaseAcc).events = s.events := (rfl)
@[simp] theorem State.releaseAcc_vars : (s.releaseAcc).vars = s.vars := (rfl)

/-! accept -/

@[simp] theorem State.accept_busy (v : Word) : (s.accept v).busy = true := (rfl)
@[simp] theorem State.accept_lost (v : Word) : (s.accept v).lost = false := (rfl)
@[simp] theorem State.accept_err (v : Word) : (s.accept v).err = .noError := (rfl)
@[simp] theorem State.accept_order (v : Word) : (s.accept v).order = s.order := (rfl)
@[simp] theorem State.accept_len (v : Word) : (s.accept v).len = s.len := (rfl)
@[simp] theorem State.accept_csum1 (v : Word) : (s.accept v).csum1 = s.csum1 := (rfl)
@[simp] theorem State.accept_csum2 (v : Word) : (s.accept v).csum2 = s.csum2 := (rfl)
@[simp] theorem State.accept_cmdl (v : Word) : (s.accept v).cmdl = v := (rfl)
@[simp] theorem State.accept_acc (v : Word) : (s.accept v).acc = s.acc := (rfl)
@[simp] theorem State.accept_widx (v : Word) : (s.accept v).widx = s.widx := (rfl)
@[simp] theorem State.accept_buf (v : Word) : (s.accept v).buf = s.buf := (rfl)
@[simp] theorem State.accept_fault (v : Word) : (s.accept v).fault = s.fault := (rfl)
@[simp] theorem State.accept_build (v : Word) : (s.accept v).build = s.build := (rfl)
@[simp] theorem State.accept_bufDraw (v : Word) : (s.accept v).bufDraw = s.bufDraw := (rfl)
@[simp] theorem State.accept_draws (v : Word) : (s.accept v).draws = s.draws + 1 := (rfl)
@[simp] theorem State.accept_tainted (v : Word) : (s.accept v).tainted = false := (rfl)
@[simp] theorem State.accept_latency (v : Word) : (s.accept v).latency = Config.freeLatency s.draws := (rfl)
@[simp] theorem State.accept_events (v : Word) : (s.accept v).events = s.events := (rfl)
@[simp] theorem State.accept_vars (v : Word) : (s.accept v).vars = s.vars := (rfl)

/-! lose -/

@[simp] theorem State.lose_busy : (s.lose).busy = s.busy := (rfl)
@[simp] theorem State.lose_lost : (s.lose).lost = true := (rfl)
@[simp] theorem State.lose_err : (s.lose).err = s.err := (rfl)
@[simp] theorem State.lose_order : (s.lose).order = s.order := (rfl)
@[simp] theorem State.lose_len : (s.lose).len = s.len := (rfl)
@[simp] theorem State.lose_csum1 : (s.lose).csum1 = s.csum1 := (rfl)
@[simp] theorem State.lose_csum2 : (s.lose).csum2 = s.csum2 := (rfl)
@[simp] theorem State.lose_cmdl : (s.lose).cmdl = s.cmdl := (rfl)
@[simp] theorem State.lose_acc : (s.lose).acc = s.acc := (rfl)
@[simp] theorem State.lose_widx : (s.lose).widx = s.widx := (rfl)
@[simp] theorem State.lose_buf : (s.lose).buf = s.buf := (rfl)
@[simp] theorem State.lose_fault : (s.lose).fault = s.fault := (rfl)
@[simp] theorem State.lose_build : (s.lose).build = s.build := (rfl)
@[simp] theorem State.lose_bufDraw : (s.lose).bufDraw = s.bufDraw := (rfl)
@[simp] theorem State.lose_draws : (s.lose).draws = s.draws := (rfl)
@[simp] theorem State.lose_tainted : (s.lose).tainted = s.tainted := (rfl)
@[simp] theorem State.lose_latency : (s.lose).latency = s.latency := (rfl)
@[simp] theorem State.lose_events : (s.lose).events = s.events := (rfl)
@[simp] theorem State.lose_vars : (s.lose).vars = s.vars := (rfl)

/-! setFault -/

@[simp] theorem State.setFault_busy : (s.setFault).busy = s.busy := (rfl)
@[simp] theorem State.setFault_lost : (s.setFault).lost = s.lost := (rfl)
@[simp] theorem State.setFault_err : (s.setFault).err = s.err := (rfl)
@[simp] theorem State.setFault_order : (s.setFault).order = s.order := (rfl)
@[simp] theorem State.setFault_len : (s.setFault).len = s.len := (rfl)
@[simp] theorem State.setFault_csum1 : (s.setFault).csum1 = s.csum1 := (rfl)
@[simp] theorem State.setFault_csum2 : (s.setFault).csum2 = s.csum2 := (rfl)
@[simp] theorem State.setFault_cmdl : (s.setFault).cmdl = s.cmdl := (rfl)
@[simp] theorem State.setFault_acc : (s.setFault).acc = s.acc := (rfl)
@[simp] theorem State.setFault_widx : (s.setFault).widx = s.widx := (rfl)
@[simp] theorem State.setFault_buf : (s.setFault).buf = s.buf := (rfl)
@[simp] theorem State.setFault_fault : (s.setFault).fault = true := (rfl)
@[simp] theorem State.setFault_build : (s.setFault).build = s.build := (rfl)
@[simp] theorem State.setFault_bufDraw : (s.setFault).bufDraw = s.bufDraw := (rfl)
@[simp] theorem State.setFault_draws : (s.setFault).draws = s.draws := (rfl)
@[simp] theorem State.setFault_tainted : (s.setFault).tainted = s.tainted := (rfl)
@[simp] theorem State.setFault_latency : (s.setFault).latency = s.latency := (rfl)
@[simp] theorem State.setFault_events : (s.setFault).events = s.events := (rfl)
@[simp] theorem State.setFault_vars : (s.setFault).vars = s.vars := (rfl)

/-! taint -/

@[simp] theorem State.taint_busy : (s.taint).busy = s.busy := (rfl)
@[simp] theorem State.taint_lost : (s.taint).lost = s.lost := (rfl)
@[simp] theorem State.taint_err : (s.taint).err = s.err := (rfl)
@[simp] theorem State.taint_order : (s.taint).order = s.order := (rfl)
@[simp] theorem State.taint_len : (s.taint).len = s.len := (rfl)
@[simp] theorem State.taint_csum1 : (s.taint).csum1 = s.csum1 := (rfl)
@[simp] theorem State.taint_csum2 : (s.taint).csum2 = s.csum2 := (rfl)
@[simp] theorem State.taint_cmdl : (s.taint).cmdl = s.cmdl := (rfl)
@[simp] theorem State.taint_acc : (s.taint).acc = s.acc := (rfl)
@[simp] theorem State.taint_widx : (s.taint).widx = s.widx := (rfl)
@[simp] theorem State.taint_buf : (s.taint).buf = s.buf := (rfl)
@[simp] theorem State.taint_fault : (s.taint).fault = true := (rfl)
@[simp] theorem State.taint_build : (s.taint).build = s.build := (rfl)
@[simp] theorem State.taint_bufDraw : (s.taint).bufDraw = s.bufDraw := (rfl)
@[simp] theorem State.taint_draws : (s.taint).draws = s.draws := (rfl)
@[simp] theorem State.taint_tainted : (s.taint).tainted = true := (rfl)
@[simp] theorem State.taint_latency : (s.taint).latency = s.latency := (rfl)
@[simp] theorem State.taint_events : (s.taint).events = s.events := (rfl)
@[simp] theorem State.taint_vars : (s.taint).vars = s.vars := (rfl)

/-! setVar -/

@[simp] theorem State.setVar_busy (x : Nat) (v : Word) : (s.setVar x v).busy = s.busy := (rfl)
@[simp] theorem State.setVar_lost (x : Nat) (v : Word) : (s.setVar x v).lost = s.lost := (rfl)
@[simp] theorem State.setVar_err (x : Nat) (v : Word) : (s.setVar x v).err = s.err := (rfl)
@[simp] theorem State.setVar_order (x : Nat) (v : Word) : (s.setVar x v).order = s.order := (rfl)
@[simp] theorem State.setVar_len (x : Nat) (v : Word) : (s.setVar x v).len = s.len := (rfl)
@[simp] theorem State.setVar_csum1 (x : Nat) (v : Word) : (s.setVar x v).csum1 = s.csum1 := (rfl)
@[simp] theorem State.setVar_csum2 (x : Nat) (v : Word) : (s.setVar x v).csum2 = s.csum2 := (rfl)
@[simp] theorem State.setVar_cmdl (x : Nat) (v : Word) : (s.setVar x v).cmdl = s.cmdl := (rfl)
@[simp] theorem State.setVar_acc (x : Nat) (v : Word) : (s.setVar x v).acc = s.acc := (rfl)
@[simp] theorem State.setVar_widx (x : Nat) (v : Word) : (s.setVar x v).widx = s.widx := (rfl)
@[simp] theorem State.setVar_buf (x : Nat) (v : Word) : (s.setVar x v).buf = s.buf := (rfl)
@[simp] theorem State.setVar_fault (x : Nat) (v : Word) : (s.setVar x v).fault = s.fault := (rfl)
@[simp] theorem State.setVar_build (x : Nat) (v : Word) : (s.setVar x v).build = s.build := (rfl)
@[simp] theorem State.setVar_bufDraw (x : Nat) (v : Word) : (s.setVar x v).bufDraw = s.bufDraw := (rfl)
@[simp] theorem State.setVar_draws (x : Nat) (v : Word) : (s.setVar x v).draws = s.draws := (rfl)
@[simp] theorem State.setVar_tainted (x : Nat) (v : Word) : (s.setVar x v).tainted = s.tainted := (rfl)
@[simp] theorem State.setVar_latency (x : Nat) (v : Word) : (s.setVar x v).latency = s.latency := (rfl)
@[simp] theorem State.setVar_events (x : Nat) (v : Word) : (s.setVar x v).events = s.events := (rfl)
@[simp] theorem State.setVar_vars (x : Nat) (v : Word) : (s.setVar x v).vars = sparseInsert x v s.vars := (rfl)

/-! raiseErr -/

@[simp] theorem State.raiseErr_busy (code : ErrCode) : (s.raiseErr code).busy = s.busy := (rfl)
@[simp] theorem State.raiseErr_lost (code : ErrCode) : (s.raiseErr code).lost = s.lost := (rfl)
@[simp] theorem State.raiseErr_err (code : ErrCode) : (s.raiseErr code).err = code := (rfl)
@[simp] theorem State.raiseErr_order (code : ErrCode) : (s.raiseErr code).order = s.order := (rfl)
@[simp] theorem State.raiseErr_len (code : ErrCode) : (s.raiseErr code).len = s.len := (rfl)
@[simp] theorem State.raiseErr_csum1 (code : ErrCode) : (s.raiseErr code).csum1 = s.csum1 := (rfl)
@[simp] theorem State.raiseErr_csum2 (code : ErrCode) : (s.raiseErr code).csum2 = s.csum2 := (rfl)
@[simp] theorem State.raiseErr_cmdl (code : ErrCode) : (s.raiseErr code).cmdl = s.cmdl := (rfl)
@[simp] theorem State.raiseErr_acc (code : ErrCode) : (s.raiseErr code).acc = s.acc := (rfl)
@[simp] theorem State.raiseErr_widx (code : ErrCode) : (s.raiseErr code).widx = s.widx := (rfl)
@[simp] theorem State.raiseErr_buf (code : ErrCode) : (s.raiseErr code).buf = s.buf := (rfl)
@[simp] theorem State.raiseErr_fault (code : ErrCode) : (s.raiseErr code).fault = s.fault := (rfl)
@[simp] theorem State.raiseErr_build (code : ErrCode) : (s.raiseErr code).build = s.build := (rfl)
@[simp] theorem State.raiseErr_bufDraw (code : ErrCode) : (s.raiseErr code).bufDraw = s.bufDraw := (rfl)
@[simp] theorem State.raiseErr_draws (code : ErrCode) : (s.raiseErr code).draws = s.draws := (rfl)
@[simp] theorem State.raiseErr_tainted (code : ErrCode) : (s.raiseErr code).tainted = s.tainted := (rfl)
@[simp] theorem State.raiseErr_latency (code : ErrCode) : (s.raiseErr code).latency = s.latency := (rfl)
@[simp] theorem State.raiseErr_events (code : ErrCode) : (s.raiseErr code).events = s.events := (rfl)
@[simp] theorem State.raiseErr_vars (code : ErrCode) : (s.raiseErr code).vars = s.vars := (rfl)

/-! complete -/

@[simp] theorem State.complete_busy : (s.complete).busy = s.busy := (rfl)
@[simp] theorem State.complete_lost : (s.complete).lost = s.lost := (rfl)
@[simp] theorem State.complete_err : (s.complete).err = .noError := (rfl)
@[simp] theorem State.complete_order : (s.complete).order = s.order := (rfl)
@[simp] theorem State.complete_len : (s.complete).len = s.len := (rfl)
@[simp] theorem State.complete_csum1 : (s.complete).csum1 = s.csum1 := (rfl)
@[simp] theorem State.complete_csum2 : (s.complete).csum2 = s.csum2 := (rfl)
@[simp] theorem State.complete_cmdl : (s.complete).cmdl = s.cmdl := (rfl)
@[simp] theorem State.complete_acc : (s.complete).acc = s.acc := (rfl)
@[simp] theorem State.complete_widx : (s.complete).widx = s.widx := (rfl)
@[simp] theorem State.complete_buf : (s.complete).buf = s.buf := (rfl)
@[simp] theorem State.complete_fault : (s.complete).fault = s.fault := (rfl)
@[simp] theorem State.complete_build : (s.complete).build = s.build := (rfl)
@[simp] theorem State.complete_bufDraw : (s.complete).bufDraw = s.bufDraw := (rfl)
@[simp] theorem State.complete_draws : (s.complete).draws = s.draws := (rfl)
@[simp] theorem State.complete_tainted : (s.complete).tainted = s.tainted := (rfl)
@[simp] theorem State.complete_latency : (s.complete).latency = s.latency := (rfl)
@[simp] theorem State.complete_events : (s.complete).events = s.events := (rfl)
@[simp] theorem State.complete_vars : (s.complete).vars = s.vars := (rfl)

/-! setOrder -/

@[simp] theorem State.setOrder_busy (o : OrderTag) : (s.setOrder o).busy = s.busy := (rfl)
@[simp] theorem State.setOrder_lost (o : OrderTag) : (s.setOrder o).lost = s.lost := (rfl)
@[simp] theorem State.setOrder_err (o : OrderTag) : (s.setOrder o).err = s.err := (rfl)
@[simp] theorem State.setOrder_order (o : OrderTag) : (s.setOrder o).order = o := (rfl)
@[simp] theorem State.setOrder_len (o : OrderTag) : (s.setOrder o).len = s.len := (rfl)
@[simp] theorem State.setOrder_csum1 (o : OrderTag) : (s.setOrder o).csum1 = s.csum1 := (rfl)
@[simp] theorem State.setOrder_csum2 (o : OrderTag) : (s.setOrder o).csum2 = s.csum2 := (rfl)
@[simp] theorem State.setOrder_cmdl (o : OrderTag) : (s.setOrder o).cmdl = s.cmdl := (rfl)
@[simp] theorem State.setOrder_acc (o : OrderTag) : (s.setOrder o).acc = s.acc := (rfl)
@[simp] theorem State.setOrder_widx (o : OrderTag) : (s.setOrder o).widx = s.widx := (rfl)
@[simp] theorem State.setOrder_buf (o : OrderTag) : (s.setOrder o).buf = s.buf := (rfl)
@[simp] theorem State.setOrder_fault (o : OrderTag) : (s.setOrder o).fault = s.fault := (rfl)
@[simp] theorem State.setOrder_build (o : OrderTag) : (s.setOrder o).build = s.build := (rfl)
@[simp] theorem State.setOrder_bufDraw (o : OrderTag) : (s.setOrder o).bufDraw = s.bufDraw := (rfl)
@[simp] theorem State.setOrder_draws (o : OrderTag) : (s.setOrder o).draws = s.draws := (rfl)
@[simp] theorem State.setOrder_tainted (o : OrderTag) : (s.setOrder o).tainted = s.tainted := (rfl)
@[simp] theorem State.setOrder_latency (o : OrderTag) : (s.setOrder o).latency = s.latency := (rfl)
@[simp] theorem State.setOrder_events (o : OrderTag) : (s.setOrder o).events = s.events := (rfl)
@[simp] theorem State.setOrder_vars (o : OrderTag) : (s.setOrder o).vars = s.vars := (rfl)

/-! nextDraw -/

@[simp] theorem State.nextDraw_busy : (s.nextDraw).busy = s.busy := (rfl)
@[simp] theorem State.nextDraw_lost : (s.nextDraw).lost = s.lost := (rfl)
@[simp] theorem State.nextDraw_err : (s.nextDraw).err = s.err := (rfl)
@[simp] theorem State.nextDraw_order : (s.nextDraw).order = s.order := (rfl)
@[simp] theorem State.nextDraw_len : (s.nextDraw).len = s.len := (rfl)
@[simp] theorem State.nextDraw_csum1 : (s.nextDraw).csum1 = s.csum1 := (rfl)
@[simp] theorem State.nextDraw_csum2 : (s.nextDraw).csum2 = s.csum2 := (rfl)
@[simp] theorem State.nextDraw_cmdl : (s.nextDraw).cmdl = s.cmdl := (rfl)
@[simp] theorem State.nextDraw_acc : (s.nextDraw).acc = s.acc := (rfl)
@[simp] theorem State.nextDraw_widx : (s.nextDraw).widx = s.widx := (rfl)
@[simp] theorem State.nextDraw_buf : (s.nextDraw).buf = s.buf := (rfl)
@[simp] theorem State.nextDraw_fault : (s.nextDraw).fault = s.fault := (rfl)
@[simp] theorem State.nextDraw_build : (s.nextDraw).build = s.build := (rfl)
@[simp] theorem State.nextDraw_bufDraw : (s.nextDraw).bufDraw = s.bufDraw := (rfl)
@[simp] theorem State.nextDraw_draws : (s.nextDraw).draws = s.draws + 1 := (rfl)
@[simp] theorem State.nextDraw_tainted : (s.nextDraw).tainted = s.tainted := (rfl)
@[simp] theorem State.nextDraw_latency : (s.nextDraw).latency = s.latency := (rfl)
@[simp] theorem State.nextDraw_events : (s.nextDraw).events = s.events := (rfl)
@[simp] theorem State.nextDraw_vars : (s.nextDraw).vars = s.vars := (rfl)

/-! latchChecksum -/

@[simp] theorem State.latchChecksum_busy (a : Acc) : (s.latchChecksum a).busy = s.busy := (rfl)
@[simp] theorem State.latchChecksum_lost (a : Acc) : (s.latchChecksum a).lost = s.lost := (rfl)
@[simp] theorem State.latchChecksum_err (a : Acc) : (s.latchChecksum a).err = s.err := (rfl)
@[simp] theorem State.latchChecksum_order (a : Acc) : (s.latchChecksum a).order = s.order := (rfl)
@[simp] theorem State.latchChecksum_len (a : Acc) : (s.latchChecksum a).len = s.len := (rfl)
@[simp] theorem State.latchChecksum_csum1 (a : Acc) : (s.latchChecksum a).csum1 = a.final1 := (rfl)
@[simp] theorem State.latchChecksum_csum2 (a : Acc) : (s.latchChecksum a).csum2 = a.final2 := (rfl)
@[simp] theorem State.latchChecksum_cmdl (a : Acc) : (s.latchChecksum a).cmdl = s.cmdl := (rfl)
@[simp] theorem State.latchChecksum_acc (a : Acc) : (s.latchChecksum a).acc = a := (rfl)
@[simp] theorem State.latchChecksum_widx (a : Acc) : (s.latchChecksum a).widx = BitVec.ofNat 18 (Config.winWords - 1) := (rfl)
@[simp] theorem State.latchChecksum_buf (a : Acc) : (s.latchChecksum a).buf = s.buf := (rfl)
@[simp] theorem State.latchChecksum_fault (a : Acc) : (s.latchChecksum a).fault = s.fault := (rfl)
@[simp] theorem State.latchChecksum_build (a : Acc) : (s.latchChecksum a).build = s.build := (rfl)
@[simp] theorem State.latchChecksum_bufDraw (a : Acc) : (s.latchChecksum a).bufDraw = s.bufDraw := (rfl)
@[simp] theorem State.latchChecksum_draws (a : Acc) : (s.latchChecksum a).draws = s.draws := (rfl)
@[simp] theorem State.latchChecksum_tainted (a : Acc) : (s.latchChecksum a).tainted = s.tainted := (rfl)
@[simp] theorem State.latchChecksum_latency (a : Acc) : (s.latchChecksum a).latency = s.latency := (rfl)
@[simp] theorem State.latchChecksum_events (a : Acc) : (s.latchChecksum a).events = s.events := (rfl)
@[simp] theorem State.latchChecksum_vars (a : Acc) : (s.latchChecksum a).vars = s.vars := (rfl)

/-! setLen -/

@[simp] theorem State.setLen_busy (v : Word) : (s.setLen v).busy = s.busy := (rfl)
@[simp] theorem State.setLen_lost (v : Word) : (s.setLen v).lost = s.lost := (rfl)
@[simp] theorem State.setLen_err (v : Word) : (s.setLen v).err = s.err := (rfl)
@[simp] theorem State.setLen_order (v : Word) : (s.setLen v).order = s.order := (rfl)
@[simp] theorem State.setLen_len (v : Word) : (s.setLen v).len = s.clampLen v := (rfl)
@[simp] theorem State.setLen_csum1 (v : Word) : (s.setLen v).csum1 = s.csum1 := (rfl)
@[simp] theorem State.setLen_csum2 (v : Word) : (s.setLen v).csum2 = s.csum2 := (rfl)
@[simp] theorem State.setLen_cmdl (v : Word) : (s.setLen v).cmdl = s.cmdl := (rfl)
@[simp] theorem State.setLen_acc (v : Word) : (s.setLen v).acc = s.acc := (rfl)
@[simp] theorem State.setLen_widx (v : Word) : (s.setLen v).widx = s.widx := (rfl)
@[simp] theorem State.setLen_buf (v : Word) : (s.setLen v).buf = s.buf := (rfl)
@[simp] theorem State.setLen_fault (v : Word) : (s.setLen v).fault = s.fault := (rfl)
@[simp] theorem State.setLen_build (v : Word) : (s.setLen v).build = s.build := (rfl)
@[simp] theorem State.setLen_bufDraw (v : Word) : (s.setLen v).bufDraw = s.bufDraw := (rfl)
@[simp] theorem State.setLen_draws (v : Word) : (s.setLen v).draws = s.draws := (rfl)
@[simp] theorem State.setLen_tainted (v : Word) : (s.setLen v).tainted = s.tainted := (rfl)
@[simp] theorem State.setLen_latency (v : Word) : (s.setLen v).latency = s.latency := (rfl)
@[simp] theorem State.setLen_events (v : Word) : (s.setLen v).events = s.events := (rfl)
@[simp] theorem State.setLen_vars (v : Word) : (s.setLen v).vars = s.vars := (rfl)

end Sys2Proof.Machine
end

