-- ==== Sys2Proof/Laws/Ops.lean ====
section
/-!
SUPPORT. What the shared operations do: reading and writing BUF, the pair swap, the window recurrence, how a command ends,
and the reset input.
-/
namespace Sys2Proof.Machine

/-! BUF -/

theorem State.bufRead_congr {s t : State} (hb : t.buf = s.buf) (hd : t.bufDraw = s.bufDraw) (a : Nat) :
    t.bufRead a = s.bufRead a := by
  simp [State.bufRead, hb, hd]

theorem State.bufReadBE32_congr {s t : State} {a : Nat} (h : ∀ j, j < 4 → t.bufRead (a + j) = s.bufRead (a + j)) :
    t.bufReadBE32 a = s.bufReadBE32 a := by
  have h0 := h 0 (by omega)
  have h1 := h 1 (by omega)
  have h2 := h 2 (by omega)
  have h3 := h 3 (by omega)
  simp only [Nat.add_zero] at h0
  simp [State.bufReadBE32, h0, h1, h2, h3]

/-- A later read of the address written gives the byte written (20_memory.md R48). -/
theorem State.bufRead_bufWrite_same (s : State) (a : Nat) (v : Byte) : (s.bufWrite a v).bufRead a = v := by
  simp [State.bufRead, sparseFind_insert_same]

theorem State.bufRead_bufWrite_ne (s : State) {a b : Nat} (h : b ≠ a) (v : Byte) :
    (s.bufWrite a v).bufRead b = s.bufRead b := by
  simp [State.bufRead, sparseFind_insert_ne h]

theorem Memory.wf_insert {m : Memory} (a : Nat) (v : Byte) (h : Memory.wf m = true) :
    Memory.wf (sparseInsert a v m) = true :=
  sparseRisingFrom_insert v (Nat.zero_le a) h

/-- BUF at reset is in its canonical form. -/
theorem Memory.wf_reset : Memory.wf State.reset.buf = true := rfl

/-- BUF in its canonical form is determined by the bytes it lists: equal memories are equal data. -/
theorem Memory.ext_of_wf {m n : Memory} (hm : Memory.wf m = true) (hn : Memory.wf n = true)
    (h : ∀ a, sparseFind a m = sparseFind a n) : m = n :=
  sparse_ext hm hn h

/-- After BUF became unspecified every byte is the free one of its own draw (70_reset_and_hazards.md R142). -/
theorem State.bufRead_forgetBuf (s : State) (a : Nat) : s.forgetBuf.bufRead a = Config.freeByte s.draws a := rfl

/-- The detector reads LEN and BUF bytes 0..3 only (40_detector.md R83). -/
theorem State.magicIs_congr {s t : State} (h : ∀ a, a < 4 → t.bufRead a = s.bufRead a) (b0 b1 b2 b3 : Byte) :
    t.magicIs b0 b1 b2 b3 = s.magicIs b0 b1 b2 b3 := by
  simp [State.magicIs, h 0 (by omega), h 1 (by omega), h 2 (by omega), h 3 (by omega)]

/-! The pair swap -/

/-- A swap of pairs changes BUF alone. -/
theorem swapPairs_eq (n : Nat) (s : State) : swapPairs n s = { s with buf := (swapPairs n s).buf } := by
  induction n with
  | zero => rfl
  | succ n ih => rw [swapPairs, ih]; rfl

@[simp] theorem swapPairs_busy (n : Nat) (s : State) : (swapPairs n s).busy = s.busy := by rw [swapPairs_eq]
@[simp] theorem swapPairs_lost (n : Nat) (s : State) : (swapPairs n s).lost = s.lost := by rw [swapPairs_eq]
@[simp] theorem swapPairs_err (n : Nat) (s : State) : (swapPairs n s).err = s.err := by rw [swapPairs_eq]
@[simp] theorem swapPairs_order (n : Nat) (s : State) : (swapPairs n s).order = s.order := by rw [swapPairs_eq]
@[simp] theorem swapPairs_len (n : Nat) (s : State) : (swapPairs n s).len = s.len := by rw [swapPairs_eq]
@[simp] theorem swapPairs_csum1 (n : Nat) (s : State) : (swapPairs n s).csum1 = s.csum1 := by rw [swapPairs_eq]
@[simp] theorem swapPairs_csum2 (n : Nat) (s : State) : (swapPairs n s).csum2 = s.csum2 := by rw [swapPairs_eq]
@[simp] theorem swapPairs_cmdl (n : Nat) (s : State) : (swapPairs n s).cmdl = s.cmdl := by rw [swapPairs_eq]
@[simp] theorem swapPairs_acc (n : Nat) (s : State) : (swapPairs n s).acc = s.acc := by rw [swapPairs_eq]
@[simp] theorem swapPairs_widx (n : Nat) (s : State) : (swapPairs n s).widx = s.widx := by rw [swapPairs_eq]
@[simp] theorem swapPairs_fault (n : Nat) (s : State) : (swapPairs n s).fault = s.fault := by rw [swapPairs_eq]
@[simp] theorem swapPairs_build (n : Nat) (s : State) : (swapPairs n s).build = s.build := by rw [swapPairs_eq]
@[simp] theorem swapPairs_bufDraw (n : Nat) (s : State) : (swapPairs n s).bufDraw = s.bufDraw := by rw [swapPairs_eq]
@[simp] theorem swapPairs_draws (n : Nat) (s : State) : (swapPairs n s).draws = s.draws := by rw [swapPairs_eq]
@[simp] theorem swapPairs_tainted (n : Nat) (s : State) : (swapPairs n s).tainted = s.tainted := by rw [swapPairs_eq]
@[simp] theorem swapPairs_latency (n : Nat) (s : State) : (swapPairs n s).latency = s.latency := by rw [swapPairs_eq]
@[simp] theorem swapPairs_events (n : Nat) (s : State) : (swapPairs n s).events = s.events := by rw [swapPairs_eq]
@[simp] theorem swapPairs_vars (n : Nat) (s : State) : (swapPairs n s).vars = s.vars := by rw [swapPairs_eq]

theorem State.bufRead_swapPair (i a : Nat) (s : State) :
    (s.swapPair i).bufRead a =
      if a = 2 * i then s.bufRead (2 * i + 1) else if a = 2 * i + 1 then s.bufRead (2 * i) else s.bufRead a := by
  unfold State.swapPair
  by_cases h1 : a = 2 * i + 1
  · subst h1
    simp [State.bufRead_bufWrite_same]
  · rw [State.bufRead_bufWrite_ne _ h1]
    by_cases h0 : a = 2 * i
    · subst h0
      simp [State.bufRead_bufWrite_same]
    · rw [State.bufRead_bufWrite_ne _ h0]
      simp [h0, h1]

/-- The partner of an address in its pair (41_normalizer.md R94). -/
theorem xor_one (a : Nat) : a ^^^ 1 = if a % 2 = 0 then a + 1 else a - 1 := by
  have hd : (a ^^^ 1) / 2 = a / 2 := by simp [Nat.xor_div_two]
  have hm : (a ^^^ 1) % 2 = (a + 1) % 2 := by
    have hb := Nat.testBit_xor a 1 0
    simp only [Nat.testBit_zero] at hb
    rcases Nat.mod_two_eq_zero_or_one a with h | h <;>
      rcases Nat.mod_two_eq_zero_or_one (a ^^^ 1) with h' | h' <;> simp [h, h'] at hb <;> omega
  split <;> omega

/-- What a swap of the first n pairs leaves at each address. -/
theorem bufRead_swapPairs (n a : Nat) (s : State) :
    (swapPairs n s).bufRead a = if a < 2 * n then s.bufRead (a ^^^ 1) else s.bufRead a := by
  induction n with
  | zero => simp [swapPairs]
  | succ n ih =>
    rw [swapPairs, State.bufRead_swapPair]
    have above : ∀ b, 2 * n ≤ b → (swapPairs n s).bufRead b = s.bufRead b := by
      intro b hb
      have : ∀ m ≤ n, (swapPairs m s).bufRead b = s.bufRead b := by
        intro m hm
        induction m with
        | zero => rfl
        | succ m ihm =>
          rw [swapPairs, State.bufRead_swapPair, if_neg (by omega), if_neg (by omega)]
          exact ihm (by omega)
      exact this n (Nat.le_refl n)
    split
    · rename_i h
      subst h
      rw [if_pos (by omega), xor_one, if_pos (by omega), above _ (by omega)]
    · split
      · rename_i h
        subst h
        rw [if_pos (by omega), xor_one, if_neg (by omega), above _ (by omega)]
        rfl
      · rw [ih]
        by_cases ha : a < 2 * n
        · rw [if_pos ha, if_pos (by omega)]
        · rw [if_neg ha, if_neg (by omega)]

theorem swapPairs_wf (n : Nat) (s : State) (h : Memory.wf s.buf = true) : Memory.wf (swapPairs n s).buf = true := by
  induction n with
  | zero => exact h
  | succ n ih => exact Memory.wf_insert _ _ (Memory.wf_insert _ _ ih)

theorem swapPairs_below {hi : Nat} (n : Nat) (s : State) (hn : 2 * n ≤ hi) (h : sparseBelow hi s.buf = true) :
    sparseBelow hi (swapPairs n s).buf = true := by
  induction n with
  | zero => exact h
  | succ n ih => exact sparseBelow_insert _ (by omega) (sparseBelow_insert _ (by omega) (ih (by omega)))

/-! The window recurrence -/

/-- The recurrence reads BUF alone. -/
theorem accLoop_congr {s t : State} (hb : t.buf = s.buf) (hd : t.bufDraw = s.bufDraw) (n i : Nat) (a : Acc) :
    accLoop t n i a = accLoop s n i a := by
  induction n generalizing i a with
  | zero => rfl
  | succ n ih =>
    have hw : t.windowWord i = s.windowWord i :=
      State.bufReadBE32_congr fun _ _ => State.bufRead_congr hb hd _
    rw [accLoop, accLoop, hw, ih]

/-- The last word of a run, taken off. -/
theorem accLoop_succ (s : State) (n i : Nat) (a : Acc) :
    accLoop s (n + 1) i a = accStep (s.windowWord (i + n)) (accLoop s n i a) := by
  induction n generalizing i a with
  | zero => rfl
  | succ n ih => rw [accLoop, ih, accLoop, show i + 1 + n = i + (n + 1) by omega]

/-- The recurrence is a fold over the words in order (42_checksum.md R114). -/
theorem accLoop_foldl (s : State) (n i : Nat) (a : Acc) :
    accLoop s n i a = ((List.range' i n).map s.windowWord).foldl (fun b c => accStep c b) a := by
  induction n generalizing i a with
  | zero => rfl
  | succ n ih => rw [accLoop, ih, List.range'_succ, List.map_cons, List.foldl_cons]

/-- A long enough image holds the whole window (42_checksum.md R102). -/
theorem State.windowCount_eq {s : State} (h : 0x101000 ≤ s.len.toNat) : s.windowCount = Config.winWords := by
  unfold State.windowCount
  rw [if_pos (show Config.minCsumLen ≤ s.len.toNat from h)]

/-- A big-endian word as a number (00_scope.md R15; 20_memory.md R49). -/
theorem bytesBE_toNat (b0 b1 b2 b3 : Byte) :
    (bytesBE b0 b1 b2 b3).toNat =
      b0.toNat * 2 ^ 24 + b1.toNat * 2 ^ 16 + b2.toNat * 2 ^ 8 + b3.toNat := by
  have h1 := b1.isLt
  have h2 := b2.isLt
  have h3 := b3.isLt
  have e3 : b2.toNat <<< 8 ||| b3.toNat = b2.toNat * 2 ^ 8 + b3.toNat := by
    rw [← Nat.shiftLeft_add_eq_or_of_lt h3, Nat.shiftLeft_eq]
  have e2 : b1.toNat <<< (8 + 8) ||| (b2.toNat * 2 ^ 8 + b3.toNat) =
      b1.toNat * 2 ^ 16 + (b2.toNat * 2 ^ 8 + b3.toNat) := by
    rw [← Nat.shiftLeft_add_eq_or_of_lt (by omega), Nat.shiftLeft_eq]
  simp only [bytesBE, BitVec.toNat_append]
  rw [e3, e2, ← Nat.shiftLeft_add_eq_or_of_lt (by omega), Nat.shiftLeft_eq]
  omega

/-- The model's rotation is the rotation by the low five bits (42_checksum.md R108). -/
theorem rotl32_rotateAmount (x : Word) : rotl32 x (rotateAmount x) = x.rotateLeft (x.toNat % 32) := by
  have hr : rotateAmount x = x.toNat % 32 := by
    simp only [rotateAmount, Config.rotMask, BitVec.toNat_and]
    exact Nat.and_two_pow_sub_one_eq_mod _ 5
  rw [hr]
  have hlt : x.toNat % 32 < 32 := Nat.mod_lt _ (by omega)
  unfold rotl32 BitVec.rotateLeft BitVec.rotateLeftAux
  rw [Nat.mod_eq_of_lt hlt]
  split
  · rename_i h
    rw [h]
    have hz : x >>> 32 = 0#32 := BitVec.ushiftRight_eq_zero (by omega)
    simp [hz]
  · rfl

/-- Sub-step (a): the comparison is the carry out of bit 31 of the integer sum (42_checksum.md R105). -/
theorem sumCarried_iff (t6 c1 : Word) : sumCarried (t6 + c1) t6 = true ↔ 2 ^ 32 ≤ t6.toNat + c1.toNat := by
  have h6 := t6.isLt
  have h1 := c1.isLt
  simp only [sumCarried, BitVec.ult, BitVec.toNat_add, decide_eq_true_eq]
  omega

/-- Some window byte is unreadable (42_checksum.md R115). -/
theorem Build.windowFails_iff (b : Build) :
    Build.windowFails b = true ↔ ∃ a, 0x1000 ≤ a ∧ a < 0x101000 ∧ b.fails a = true := by
  simp only [Build.windowFails, List.any_eq_true, inWindow, Config.winBase, Config.winSize, Build.fails,
    Bool.and_eq_true, List.contains_iff_mem]
  constructor
  · rintro ⟨a, hm, h1, h2⟩
    exact ⟨a, of_decide_eq_true h1, of_decide_eq_true h2, hm⟩
  · rintro ⟨a, h1, h2, hm⟩
    exact ⟨a, hm, decide_eq_true h1, decide_eq_true h2⟩

/-! How a command ends -/

/-- The end of a command whose inputs HOST left alone (10_state.md R31). -/
theorem State.endCommand_untainted {s : State} (o : Outcomes) (h : s.tainted = false) :
    s.endCommand o = { s with busy := false, tainted := false, latency := 0 } := by
  simp [State.endCommand, h]

@[simp] theorem State.endCommand_busy (o : Outcomes) (s : State) : (s.endCommand o).busy = false := rfl
@[simp] theorem State.endCommand_tainted (o : Outcomes) (s : State) : (s.endCommand o).tainted = false := rfl
@[simp] theorem State.endCommand_latency (o : Outcomes) (s : State) : (s.endCommand o).latency = 0 := rfl
@[simp] theorem State.endCommand_lost (o : Outcomes) (s : State) : (s.endCommand o).lost = s.lost := by
  unfold State.endCommand State.unspecifiedResults
  cases s.tainted <;> cases o.usesAcc <;> rfl
@[simp] theorem State.endCommand_len (o : Outcomes) (s : State) : (s.endCommand o).len = s.len := by
  unfold State.endCommand State.unspecifiedResults
  cases s.tainted <;> cases o.usesAcc <;> rfl
@[simp] theorem State.endCommand_cmdl (o : Outcomes) (s : State) : (s.endCommand o).cmdl = s.cmdl := by
  unfold State.endCommand State.unspecifiedResults
  cases s.tainted <;> cases o.usesAcc <;> rfl
@[simp] theorem State.endCommand_fault (o : Outcomes) (s : State) : (s.endCommand o).fault = s.fault := by
  unfold State.endCommand State.unspecifiedResults
  cases s.tainted <;> cases o.usesAcc <;> rfl
@[simp] theorem State.endCommand_build (o : Outcomes) (s : State) : (s.endCommand o).build = s.build := by
  unfold State.endCommand State.unspecifiedResults
  cases s.tainted <;> cases o.usesAcc <;> rfl
@[simp] theorem State.endCommand_events (o : Outcomes) (s : State) : (s.endCommand o).events = s.events := by
  unfold State.endCommand State.unspecifiedResults
  cases s.tainted <;> cases o.usesAcc <;> rfl
@[simp] theorem State.endCommand_vars (o : Outcomes) (s : State) : (s.endCommand o).vars = s.vars := by
  unfold State.endCommand State.unspecifiedResults
  cases s.tainted <;> cases o.usesAcc <;> rfl

/-- The end of a command whose inputs HOST changed: CSUM1, CSUM2 and BUF hold free values (70_reset_and_hazards.md
R148). -/
theorem State.endCommand_tainted_results {s : State} (o : Outcomes) (h : s.tainted = true) :
    (s.endCommand o).csum1 = Config.freeWord s.draws 1 ∧ (s.endCommand o).csum2 = Config.freeWord s.draws 2 ∧
      (s.endCommand o).buf = [] ∧ (s.endCommand o).err = o.pickErr (Config.freeWord s.draws 3) ∧
      (s.endCommand o).order = (if o.writesOrder then pickOrder (Config.freeWord s.draws 4) else s.order) := by
  unfold State.endCommand State.unspecifiedResults
  rw [h]
  cases o.usesAcc <;> exact ⟨rfl, rfl, rfl, rfl, rfl⟩

/-- A command that does not use the accumulators leaves them, whatever HOST did. -/
theorem State.endCommand_acc (o : Outcomes) (s : State) (h : o.usesAcc = false) :
    (s.endCommand o).acc = s.acc ∧ (s.endCommand o).widx = s.widx := by
  unfold State.endCommand State.unspecifiedResults
  rw [h]
  cases s.tainted <;> exact ⟨rfl, rfl⟩

theorem State.endCommand_drawn (o : Outcomes) (s : State) (h : s.bufDraw < s.draws) :
    (s.endCommand o).bufDraw < (s.endCommand o).draws := by
  unfold State.endCommand State.unspecifiedResults
  cases s.tainted <;> cases o.usesAcc <;> simp [h]

theorem State.endCommand_bufForm (o : Outcomes) (s : State) :
    (s.endCommand o).buf = s.buf ∨ (s.endCommand o).buf = [] := by
  unfold State.endCommand State.unspecifiedResults
  cases s.tainted <;> cases o.usesAcc <;> simp

/-- CHECKSUM past its two checks (42_checksum.md R100). -/
theorem State.checksumRule_accepted {s : State} (hl : 0x101000 ≤ s.len.toNat)
    (hr : ∀ a, 0x1000 ≤ a → a < 0x101000 → s.build.fails a = false) :
    s.checksumRule = (s.latchChecksum s.windowAcc).releaseAcc.complete := by
  have h1 : ¬s.len.toNat < Config.minCsumLen := by
    unfold Config.minCsumLen
    omega
  have h2 : ¬Build.windowFails s.build = true := by
    intro hc
    obtain ⟨a, ha, hb, hf⟩ := (Build.windowFails_iff _).1 hc
    rw [hr a ha hb] at hf
    contradiction
  unfold State.checksumRule
  rw [if_neg h1, if_neg h2]

/-- CHECKSUM on a short buffer (42_checksum.md R101). -/
theorem State.checksumRule_short {s : State} (hl : s.len.toNat < 0x101000) :
    s.checksumRule = s.raiseErr .notLongEnough := by
  unfold State.checksumRule
  rw [if_pos (show s.len.toNat < Config.minCsumLen from hl)]

/-- CHECKSUM with an unreadable window byte (42_checksum.md R115). -/
theorem State.checksumRule_unreadable {s : State} (hl : 0x101000 ≤ s.len.toNat)
    (hr : ∃ a, 0x1000 ≤ a ∧ a < 0x101000 ∧ s.build.fails a = true) :
    s.checksumRule = s.raiseErr .readError := by
  have h1 : ¬s.len.toNat < Config.minCsumLen := by
    unfold Config.minCsumLen
    omega
  unfold State.checksumRule
  rw [if_neg h1, if_pos ((Build.windowFails_iff _).2 hr)]

/-- Everything the rule of CHECKSUM can do. -/
theorem State.checksumRule_cases (s : State) :
    s.checksumRule = s.raiseErr .notLongEnough ∨ s.checksumRule = s.raiseErr .readError ∨
      s.checksumRule = (s.latchChecksum s.windowAcc).releaseAcc.complete := by
  unfold State.checksumRule
  split
  · exact .inl rfl
  · split
    · exact .inr (.inl rfl)
    · exact .inr (.inr rfl)

/-- Everything the rule of NORMALIZE can do (41_normalizer.md R89, R92). -/
theorem State.normalizeRule_cases (s : State) (tgt : Target) :
    (s.detect = .undetermined ∧ s.normalizeRule tgt = (s.setOrder .undetermined).raiseErr .unknownOrdering) ∨
      (s.detect ≠ .undetermined ∧ s.len.getLsbD 0 = true ∧
        s.normalizeRule tgt = (s.setOrder s.detect).raiseErr .oddLength) ∨
      (s.len.getLsbD 0 = false ∧ s.detect = targetTag tgt ∧ s.normalizeRule tgt = (s.setOrder s.detect).complete) ∨
      (s.len.getLsbD 0 = false ∧ s.detect ≠ .undetermined ∧ s.detect ≠ targetTag tgt ∧
        s.normalizeRule tgt = ((swapPairs (s.len.toNat / 2) s).setOrder (targetTag tgt)).complete) := by
  unfold State.normalizeRule
  simp only
  split
  · rename_i h
    exact .inl ⟨h, rfl⟩
  · rename_i h
    split
    · rename_i ho
      exact .inr (.inl ⟨h, ho, rfl⟩)
    · rename_i ho
      rw [Bool.not_eq_true] at ho
      split
      · rename_i he
        exact .inr (.inr (.inl ⟨ho, he, rfl⟩))
      · rename_i he
        exact .inr (.inr (.inr ⟨ho, h, he, rfl⟩))

/-- Bit 0 of LEN is its parity (41_normalizer.md R91). -/
theorem getLsbD_zero_iff_odd (v : Word) : v.getLsbD 0 = decide (v.toNat % 2 = 1) := by
  rw [← BitVec.testBit_toNat, Nat.testBit_zero]

/-! The reset input -/

/-- The values that 10_state.md R41 gives, and what reset leaves alone. -/
theorem State.resetInput_given (s : State) :
    s.resetInput.busy = false ∧ s.resetInput.lost = false ∧ s.resetInput.err = .noError ∧
      s.resetInput.order = .undetermined ∧ s.resetInput.len = 0#32 ∧ s.resetInput.csum1 = 0#32 ∧
      s.resetInput.csum2 = 0#32 ∧ s.resetInput.buf = [] ∧ s.resetInput.fault = s.fault ∧
      s.resetInput.build = s.build ∧ s.resetInput.events = s.events ∧ s.resetInput.vars = s.vars ∧
      s.resetInput.tainted = false ∧ s.resetInput.latency = 0 :=
  ⟨rfl, rfl, rfl, rfl, rfl, rfl, rfl, rfl, rfl, rfl, rfl, rfl, rfl, rfl⟩

end Sys2Proof.Machine
end

