-- ==== Sys2Proof/Laws/PerInstr.lean ====
section
/-!
SUPPORT. Per instruction: its word is a legal one, whose fields are those of format CMDW (30_encoding.md R68–R74).
-/
namespace Sys2Proof.Laws.LegalWord

/-- The word of an instruction passes the three checks of a legal word, and only a NORMALIZE has TGT = 1 in it
(30_encoding.md R69–R74). -/
def Statement (i : Instr) : Prop :=
  i.wellFormed = true ∧ wordWellFormed (encode i) = true ∧
    (fieldTgt (encode i) = true → i = .normalize .u16LittleEndian)

theorem detect : Statement .detect := by unfold Statement; decide

theorem normalize (tgt : Target) : Statement (.normalize tgt) := by unfold Statement; cases tgt <;> decide

theorem checksum : Statement .checksum := by unfold Statement; decide

end Sys2Proof.Laws.LegalWord
end

