-- ==== Sys2Proof/Laws/Step.lean ====
section
/-!
SUPPORT. What one step can do, said once: ENGINE completes a command, or HOST's next transaction takes effect, or the reset
input does, or nothing is to come.
-/
namespace Sys2Proof.Machine

theorem State.engineTurn_iff (s : State) :
    s.engineTurn = true ↔ s.busy = true ∧ (s.events = [] ∨ s.latency = 0) := by
  simp [State.engineTurn]

theorem step_engine {s : State} (h : s.engineTurn = true) : step s = engineStep s := by
  simp [step, h]

theorem step_host {s : State} (h : s.engineTurn = false) : step s = .next (hostStep s) := by
  simp [step, h]

theorem step_idle {s : State} (h : s.busy = false) : step s = .next (hostStep s) :=
  step_host (by simp [State.engineTurn, h])

theorem engineStep_legal {s : State} {i : Instr} (h : decode s.cmdl = .legal i) : engineStep s = exec i s := by
  simp [engineStep, h]

theorem engineStep_illegal {s : State} {why : Illegal} (h : decode s.cmdl = .illegal why) :
    engineStep s = .next s.illegalCommand := by
  simp [engineStep, h]

/-- The state each command's completion leaves. -/
def completion : Instr → State → State
  | .detect, s => s.detectRule.endCommand detectOutcomes
  | .normalize tgt, s => (s.normalizeRule tgt).endCommand normalizeOutcomes
  | .checksum, s => s.checksumRule.endCommand checksumOutcomes

theorem exec_eq_completion (i : Instr) (s : State) : exec i s = .next (completion i s) := by
  cases i <;> rfl

/-- What ENGINE's step leaves. -/
def engineNext (s : State) : State :=
  match decode s.cmdl with
  | .legal i => completion i s
  | .illegal _ => s.illegalCommand

theorem engineStep_eq (s : State) : engineStep s = .next (engineNext s) := by
  unfold engineStep engineNext
  cases decode s.cmdl with
  | legal i => exact exec_eq_completion i s
  | illegal why => rfl

/-- Everything a step can do: it never stops. -/
theorem step_cases {s t : State} (h : step s = .next t) :
    (s.engineTurn = true ∧ t = engineNext s) ∨ (s.engineTurn = false ∧ t = hostStep s) := by
  cases ht : s.engineTurn with
  | true =>
    rw [step_engine ht, engineStep_eq] at h
    exact .inl ⟨rfl, by injection h with h; exact h.symm⟩
  | false =>
    rw [step_host ht] at h
    exact .inr ⟨rfl, by injection h with h; exact h.symm⟩

theorem hostStep_nil {s : State} (h : s.events = []) : hostStep s = s := by
  simp [hostStep, h]

theorem hostStep_cons {s : State} {e : Event} {rest : List Event} (h : s.events = e :: rest) :
    hostStep s = runEvent e { s with events := rest, latency := s.latency - 1 } := by
  simp [hostStep, h]

/-- LEN is clamped to BUF_CAP (10_state.md R29). -/
theorem State.clampLen_toNat {s : State} (v : Word) (h : s.build.bufCap ≤ 0xFFFFFFFF) :
    (s.clampLen v).toNat = min v.toNat s.build.bufCap := by
  unfold State.clampLen
  split
  · omega
  · rw [BitVec.toNat_ofNat, Nat.mod_eq_of_lt (by omega)]
    omega

/-! The register reads change the draw count at most. -/

theorem State.readStatus_state (s : State) : (s.readStatus).2 = s ∨ (s.readStatus).2 = s.nextDraw := by
  unfold State.readStatus
  split <;> simp

theorem State.regRead_state (off : Word) (s : State) :
    (s.regRead off).2 = s ∨ (s.regRead off).2 = s.nextDraw := by
  unfold State.regRead State.readStatus State.readResult
  repeat' split
  all_goals simp

/-- A read while BUSY = 0 changes nothing (20_memory.md R57). -/
theorem State.regRead_idle (off : Word) {s : State} (h : s.busy = false) : (s.regRead off).2 = s := by
  unfold State.regRead State.readStatus State.readResult
  simp only [h]
  repeat' split
  all_goals first | rfl | contradiction

theorem State.readStatus_busyBit (s : State) : (s.readStatus).1.getLsbD 0 = s.busy := by
  unfold State.readStatus
  split
  · rename_i h
    rw [h]
    exact statusWord_busy ..
  · rename_i h
    rw [Bool.not_eq_true] at h
    rw [h]
    exact statusWord_busy ..

/-- Everything that one read of `wait` can do. -/
theorem State.hostWait_cases (s : State) :
    (s.busy = true ∧ s.hostWait = { s.nextDraw with events := .wait :: s.events }) ∨
      (s.busy = false ∧ s.hostWait = s) := by
  have hr : s.regRead offStatus = s.readStatus := by simp [State.regRead]
  cases h : s.busy with
  | true =>
    have hb : (s.readStatus).1.getLsbD 0 = true := by rw [s.readStatus_busyBit, h]
    have h2 : (s.readStatus).2 = s.nextDraw := by simp [State.readStatus, h]
    refine .inl ⟨rfl, ?_⟩
    rw [State.hostWait, hr]
    simp only [hb, if_true, h2]
    rfl
  | false =>
    have hb : (s.readStatus).1.getLsbD 0 = false := by rw [s.readStatus_busyBit, h]
    have h2 : (s.readStatus).2 = s := by simp [State.readStatus, h]
    refine .inr ⟨rfl, ?_⟩
    rw [State.hostWait, hr]
    simp only [hb, h2]
    rfl

/-- What HOST's transactions never touch: CSUM1, CSUM2, ORDER, the accumulators, WIDX and the parameters (10_state.md R28,
R32, R34). -/
theorem runEvent_keeps {e : Event} (he : e ≠ .reset) (s : State) :
    (runEvent e s).csum1 = s.csum1 ∧ (runEvent e s).csum2 = s.csum2 ∧ (runEvent e s).order = s.order ∧
      (runEvent e s).acc = s.acc ∧ (runEvent e s).widx = s.widx ∧ (runEvent e s).bufDraw = s.bufDraw ∧ (runEvent e s).build = s.build := by
  cases e with
  | wr off width v =>
    simp only [runEvent, State.hostWr, State.regWrite, State.writeCmd, State.writeLen]
    repeat' split
    all_goals exact ⟨rfl, rfl, rfl, rfl, rfl, rfl, rfl⟩
  | rd off width x =>
    simp only [runEvent, State.hostRd]
    split
    · rcases s.regRead_state off with h | h <;> simp [h]
    · exact ⟨rfl, rfl, rfl, rfl, rfl, rfl, rfl⟩
  | wrb a v =>
    simp only [runEvent, State.hostWrb]
    repeat' split
    all_goals exact ⟨rfl, rfl, rfl, rfl, rfl, rfl, rfl⟩
  | rdb a x =>
    simp only [runEvent, State.hostRdb]
    repeat' split
    all_goals exact ⟨rfl, rfl, rfl, rfl, rfl, rfl, rfl⟩
  | wait =>
    rcases s.hostWait_cases with ⟨-, h⟩ | ⟨-, h⟩ <;> simp [runEvent, h]
  | reset => exact absurd rfl he

/-- An access that reaches a register (20_memory.md R44). -/
theorem regAccessOk_iff (off : Word) (width : Width) :
    regAccessOk off width = true ↔ width = .w32 ∧ off.toNat % 4 = 0 ∧ off.toNat < 0x40 := by
  simp [regAccessOk, and_assoc]

/-- Everything a register write can do. -/
theorem State.hostWr_cases (off : Word) (width : Width) (v : WordVal) (s : State) :
    (regAccessOk off width = false ∧ s.hostWr off width v = s.setFault) ∨
      (regAccessOk off width = true ∧
        ((off = offCmd ∧ s.busy = true ∧ s.hostWr off width v = s.lose) ∨
          (off = offCmd ∧ s.busy = false ∧ s.hostWr off width v = s.accept (v.eval s)) ∨
          (off = offLen ∧ s.busy = true ∧ s.hostWr off width v = (s.setLen (v.eval s)).taint) ∨
          (off = offLen ∧ s.busy = false ∧ s.hostWr off width v = s.setLen (v.eval s)) ∨
          (off ≠ offCmd ∧ off ≠ offLen ∧ s.hostWr off width v = s))) := by
  unfold State.hostWr
  cases hok : regAccessOk off width with
  | false => exact .inl ⟨rfl, rfl⟩
  | true =>
    refine .inr ⟨rfl, ?_⟩
    unfold State.regWrite State.writeCmd State.writeLen
    by_cases hc : off = offCmd
    · cases hb : s.busy <;> simp [hc]
    · by_cases hl : off = offLen
      · have hne : ¬offLen = offCmd := by decide
        cases hb : s.busy <;> simp [hl, hne]
      · simp [hc, hl]

/-- Everything a register read can do. -/
theorem State.hostRd_cases (off : Word) (width : Width) (x : Nat) (s : State) :
    (regAccessOk off width = false ∧ s.hostRd off width x = s.setFault) ∨
      (regAccessOk off width = true ∧
        (s.hostRd off width x = s.setVar x (s.regRead off).1 ∨
          (s.busy = true ∧ s.hostRd off width x = s.nextDraw.setVar x (s.regRead off).1))) := by
  unfold State.hostRd
  cases hok : regAccessOk off width with
  | false => exact .inl ⟨rfl, rfl⟩
  | true =>
    refine .inr ⟨rfl, ?_⟩
    rw [if_pos rfl]
    cases hb : s.busy with
    | false => exact .inl (by rw [State.regRead_idle off hb])
    | true =>
      rcases s.regRead_state off with h | h
      · exact .inl (by rw [h])
      · exact .inr ⟨rfl, by rw [h]⟩

/-- Everything a byte write can do (20_memory.md R53; 70_reset_and_hazards.md R148). -/
theorem State.hostWrb_cases (a : Word) (v : ByteVal) (s : State) :
    (s.bufAddressOk a = false ∧ s.hostWrb a v = s.setFault) ∨
      (s.bufAddressOk a = true ∧
        ((s.busy = true ∧ s.hostWrb a v = (s.bufWrite a.toNat (v.eval s)).taint) ∨
          (s.busy = false ∧ s.hostWrb a v = s.bufWrite a.toNat (v.eval s)))) := by
  unfold State.hostWrb
  cases s.bufAddressOk a <;> cases s.busy <;> simp

/-- Everything a byte read can do (20_memory.md R53; 70_reset_and_hazards.md R148). -/
theorem State.hostRdb_cases (a : Word) (x : Nat) (s : State) :
    (s.bufAddressOk a = false ∧ s.hostRdb a x = s.setFault) ∨
      (s.bufAddressOk a = true ∧
        ((s.busy = true ∧ s.hostRdb a x = s.nextDraw.setVar x ((Config.freeByte s.draws a.toNat).setWidth 32)) ∨
          (s.busy = false ∧ s.hostRdb a x = s.setVar x ((s.bufRead a.toNat).setWidth 32)))) := by
  unfold State.hostRdb
  cases s.bufAddressOk a <;> cases s.busy <;> simp

/-- A variable just read into holds what was read. -/
theorem State.varValue_setVar (s : State) (x : Nat) (v : Word) : (s.setVar x v).varValue x = v := by
  simp [State.varValue, sparseFind_insert_same]

/-- The other variables keep what they held. -/
theorem State.varValue_setVar_ne (s : State) {x y : Nat} (h : y ≠ x) (v : Word) :
    (s.setVar x v).varValue y = s.varValue y := by
  simp [State.varValue, sparseFind_insert_ne h]

/-- While BUSY = 1 no HOST transaction ends the command or moves its completion (10_state.md R25). -/
theorem runEvent_busy {e : Event} (he : e ≠ .reset) {s : State} (hb : s.busy = true) :
    (runEvent e s).busy = true ∧ (runEvent e s).latency = s.latency := by
  cases e with
  | wr off width v =>
    rcases s.hostWr_cases off width v with
      ⟨-, h⟩ | ⟨-, ⟨-, -, h⟩ | ⟨-, h', -⟩ | ⟨-, -, h⟩ | ⟨-, h', -⟩ | ⟨-, -, h⟩⟩
    all_goals first | simp [runEvent, h, hb] | (rw [hb] at h'; contradiction)
  | rd off width x => rcases s.hostRd_cases off width x with ⟨-, h⟩ | ⟨-, h | ⟨-, h⟩⟩ <;> simp [runEvent, h, hb]
  | wrb a v =>
    rcases s.hostWrb_cases a v with ⟨-, h⟩ | ⟨-, ⟨-, h⟩ | ⟨h', -⟩⟩
    all_goals first | simp [runEvent, h, hb] | (rw [hb] at h'; contradiction)
  | rdb a x =>
    rcases s.hostRdb_cases a x with ⟨-, h⟩ | ⟨-, ⟨-, h⟩ | ⟨h', -⟩⟩
    all_goals first | simp [runEvent, h, hb] | (rw [hb] at h'; contradiction)
  | wait => rcases s.hostWait_cases with ⟨-, h⟩ | ⟨-, h⟩ <;> simp [runEvent, h, hb]
  | reset => exact absurd rfl he

/-- ERR over a HOST transaction: it keeps its value, but for an accept, which clears it (10_state.md R27, R30). -/
theorem runEvent_err {e : Event} (he : e ≠ .reset) (s : State) :
    (runEvent e s).err = s.err ∨
      ((runEvent e s).err = .noError ∧ s.busy = false ∧ ∃ v, e = .wr offCmd .w32 v) := by
  cases e with
  | wr off width v =>
    rcases s.hostWr_cases off width v with
      ⟨-, h⟩ | ⟨hok, ⟨-, -, h⟩ | ⟨hc, hb, h⟩ | ⟨-, -, h⟩ | ⟨-, -, h⟩ | ⟨-, -, h⟩⟩
    · exact .inl (by simp [runEvent, h])
    · exact .inl (by simp [runEvent, h])
    · exact .inr ⟨by simp [runEvent, h], hb, v, by rw [hc, ((regAccessOk_iff ..).1 hok).1]⟩
    all_goals exact .inl (by simp [runEvent, h])
  | rd off width x => rcases s.hostRd_cases off width x with ⟨-, h⟩ | ⟨-, h | ⟨-, h⟩⟩ <;> simp [runEvent, h]
  | wrb a v => rcases s.hostWrb_cases a v with ⟨-, h⟩ | ⟨-, ⟨-, h⟩ | ⟨-, h⟩⟩ <;> simp [runEvent, h]
  | rdb a x => rcases s.hostRdb_cases a x with ⟨-, h⟩ | ⟨-, ⟨-, h⟩ | ⟨-, h⟩⟩ <;> simp [runEvent, h]
  | wait => rcases s.hostWait_cases with ⟨-, h⟩ | ⟨-, h⟩ <;> simp [runEvent, h]
  | reset => exact absurd rfl he

/-- A run of k + 1 steps whose first step goes on. -/
theorem run_succ (M : Host.Core) (k : Nat) {s t : M.State} (h : M.step s = .next t) :
    M.run (k + 1) s = M.run k t := by
  simp [Host.Core.run, h]

end Sys2Proof.Machine
end

