-- ==== Sys2Proof/Laws/Safety.lean ====
section
/-!
SUPPORT. HOST that keeps the BUSY protocol does not set FAULT (70_reset_and_hazards.md R147).
-/
namespace Sys2Proof.Machine

theorem runEvent_permitted {s : State} {e : Event} (h : s.permits e = true) (hs : s.safe = true) :
    (runEvent e s).safe = true := by
  unfold State.safe at *
  cases e with
  | wr off width v =>
    simp only [State.permits, Bool.and_eq_true, Bool.not_eq_true'] at h
    rcases s.hostWr_cases off width v with
      ⟨hok, -⟩ | ⟨-, ⟨-, -, hr⟩ | ⟨-, -, hr⟩ | ⟨hl, hb, -⟩ | ⟨-, -, hr⟩ | ⟨-, -, hr⟩⟩
    · rw [hok] at h
      exact absurd h.1 (by decide)
    · simpa [runEvent, hr] using hs
    · simpa [runEvent, hr] using hs
    · rw [hl, hb] at h
      exact absurd h.2 (by decide)
    · simpa [runEvent, hr] using hs
    · simpa [runEvent, hr] using hs
  | rd off width x =>
    simp only [State.permits, Bool.and_eq_true] at h
    rcases s.hostRd_cases off width x with ⟨hok, -⟩ | ⟨-, hr | ⟨-, hr⟩⟩
    · rw [hok] at h
      exact absurd h.1 (by decide)
    · simpa [runEvent, hr] using hs
    · simpa [runEvent, hr] using hs
  | wrb a v =>
    simp only [State.permits, Bool.and_eq_true, Bool.not_eq_true'] at h
    rcases s.hostWrb_cases a v with ⟨hok, -⟩ | ⟨-, ⟨hb, -⟩ | ⟨-, hr⟩⟩
    · rw [hok] at h
      exact absurd h.1 (by decide)
    · rw [hb] at h
      exact absurd h.2 (by decide)
    · simpa [runEvent, hr] using hs
  | rdb a x =>
    simp only [State.permits, Bool.and_eq_true, Bool.not_eq_true'] at h
    rcases s.hostRdb_cases a x with ⟨hok, -⟩ | ⟨-, ⟨hb, -⟩ | ⟨-, hr⟩⟩
    · rw [hok] at h
      exact absurd h.1 (by decide)
    · rw [hb] at h
      exact absurd h.2 (by decide)
    · simpa [runEvent, hr] using hs
  | wait => rcases s.hostWait_cases with ⟨-, hr⟩ | ⟨-, hr⟩ <;> simpa [runEvent, hr] using hs
  | reset => exact hs

end Sys2Proof.Machine
end

