-- ==== Sys2Proof/Machine/HostProgram.lean ====
section
/-!
DEFINITION. HOST programs: the pseudo-instructions of 30_encoding.md R81, each the list of operations it expands to and
nothing more, and where a transaction stands in the platform's address map (20_memory.md R43, R46).
-/
namespace Sys2Proof.Machine

/-- `wr REG, v` at full width. -/
def wr32 (off v : Word) : Event := .wr off .w32 (.imm v)

/-- `rd REG -> x` at full width. -/
def rd32 (off : Word) (x : Nat) : Event := .rd off .w32 x

/-- `detect`. -/
def progDetect : List Event := [wr32 offCmd 0x00000001#32, .wait]

/-- `normalize native`. -/
def progNormalizeNative : List Event := [wr32 offCmd 0x00000002#32, .wait]

/-- `normalize u16le`. -/
def progNormalizeU16le : List Event := [wr32 offCmd 0x00000102#32, .wait]

/-- `checksum`. -/
def progChecksum : List Event := [wr32 offCmd 0x00000003#32, .wait]

/-- `setlen n`. -/
def progSetLen (n : Word) : List Event := [wr32 offLen n]

/-- `fill a, n, b`: n byte writes from address a on. -/
def progFill : (a : Word) → (n : Nat) → (b : Byte) → List Event
  | _, 0, _ => []
  | a, n + 1, b => .wrb a (.imm b) :: progFill (a + 1#32) n b

/-- The four byte writes that put HOST's variable x, big-endian, at address a (20_memory.md R58). -/
def progStoreBE (a : Word) (x : Nat) : List Event :=
  [.wrb a (.var x 0), .wrb (a + 1#32) (.var x 1), .wrb (a + 2#32) (.var x 2), .wrb (a + 3#32) (.var x 3)]

/-- `patch`, through HOST's variables x and y (20_memory.md R58; 70_reset_and_hazards.md R152). -/
def progPatch (x y : Nat) : List Event :=
  [rd32 offCsum1 x, rd32 offCsum2 y] ++ progStoreBE Config.hdrCsum1 x ++ progStoreBE Config.hdrCsum2 y

/-- The flow of 70_reset_and_hazards.md R145, without the optional way back. -/
def progFlow (x y : Nat) : List Event :=
  progDetect ++ progNormalizeNative ++ progChecksum ++ progPatch x y

/-- The address in the platform's map of a transaction: REG_BASE or BUF_BASE plus the offset or address (20_memory.md R43,
R46). No rule of the block depends on it (notes/assumptions/9.md). -/
def Event.platformAddress : Event → Option Nat
  | .wr off _ _ => some (Config.regBase + off.toNat)
  | .rd off _ _ => some (Config.regBase + off.toNat)
  | .wrb a _ => some (Config.bufBase + a.toNat)
  | .rdb a _ => some (Config.bufBase + a.toNat)
  | .wait => some (Config.regBase + offStatus.toNat)
  | .reset => none

/-- HOST's program is loaded: its operations come after those already under way. -/
def State.load (p : List Event) (s : State) : State := { s with events := s.events ++ p }

end Sys2Proof.Machine
end

