-- ==== Sys2Proof/Tests/Slice0.lean ====
section
/-!
SUPPORT. Tests of the model, their expected results taken from spec/95_test_vectors.md and the rules, and a witness for the
hypotheses of each statement.
-/
namespace Sys2Proof.Tests

open Sys2Proof Sys2Proof.Machine Sys2Proof.Claims

/-! Small states -/

/-- A build of the least capacity with a fault-free memory. -/
def build0 : Build := { bufCap := 0x101000, readFail := [] }

/-- Right after reset, with that build. -/
def base : State := { State.reset with build := build0 }

/-- Bytes laid out from an address on. -/
def cellsFrom : Nat → List Byte → Memory
  | _, [] => []
  | a, b :: rest => (a, b) :: cellsFrom (a + 1) rest

/-- An idle block with these bytes from address 0 on. -/
def image (len : Word) (bytes : List Byte) : State := { base with len := len, buf := cellsFrom 0 bytes }

/-- A Native image, V-NM-2. -/
def native8 : State := image 8#32 [0x80, 0x37, 0x12, 0x40, 0xBB, 0xAA, 0xDD, 0xCC]

/-- A U16LittleEndian image, V-NM-1. -/
def u16le8 : State := image 8#32 [0x37, 0x80, 0x40, 0x12, 0xAA, 0xBB, 0xCC, 0xDD]

/-- A command word that ENGINE completes next. -/
def command (w : Word) : State := base.acceptNow w

/-- An idle block for which this comes from outside. -/
def idle (e : Event) (rest : List Event) : State := { base with events := e :: rest }

/-- A busy block, HOST moving next. -/
def busy (e : Event) (rest : List Event) : State :=
  { base with busy := true, cmdl := 0x00000001#32, latency := 1, events := e :: rest }

/-- n bytes of 0 from address a on. -/
def zeroCells : (n a : Nat) → Memory
  | 0, _ => []
  | n + 1, a => (a, 0#8) :: zeroCells n (a + 1)

theorem sparseFind_zeroCells (n a b : Nat) (h1 : a ≤ b) (h2 : b < a + n) :
    sparseFind b (zeroCells n a) = some 0#8 := by
  induction n generalizing a with
  | zero => omega
  | succ n ih =>
    by_cases hb : a = b
    · simp [zeroCells, sparseFind, hb]
    · simp only [zeroCells, sparseFind, if_neg hb]
      exact ih (a + 1) (by omega) (by omega)

/-- An image whose window is all zero, V-CS-1. -/
def zeroImage : State := { base with len := 0x101000#32, buf := zeroCells 0x100000 0x1000 }

theorem zeroImage_read (a : Nat) (h1 : 0x1000 ≤ a) (h2 : a < 0x101000) : zeroImage.bufRead a = 0#8 := by
  have h : sparseFind a zeroImage.buf = some 0#8 := sparseFind_zeroCells 0x100000 0x1000 a h1 (by omega)
  simp only [State.bufRead, h]

/-- A window whose first two words are given, all others 0 (V-CS-ORD-a, V-CS-ORD-b). -/
def orderImage (w0 w1 : Byte) : State := (zeroImage.bufWrite 0x1003 w0).bufWrite 0x1007 w1

theorem orderImage_read (w0 w1 : Byte) (a : Nat) (h1 : 0x1000 ≤ a) (h2 : a < 0x101000) :
    (orderImage w0 w1).bufRead a = if a = 0x1007 then w1 else if a = 0x1003 then w0 else 0#8 := by
  unfold orderImage
  by_cases h7 : a = 0x1007
  · rw [h7, State.bufRead_bufWrite_same, if_pos rfl]
  · rw [State.bufRead_bufWrite_ne _ h7, if_neg h7]
    by_cases h3 : a = 0x1003
    · rw [h3, State.bufRead_bufWrite_same, if_pos rfl]
    · rw [State.bufRead_bufWrite_ne _ h3, if_neg h3, zeroImage_read a h1 h2]

theorem orderImage_tail (w0 w1 : Byte) (i : Nat) (h2 : 2 ≤ i) (hi : i < 0x40000) :
    (orderImage w0 w1).windowWord i = 0#32 := by
  have hr : ∀ j, j < 4 → (orderImage w0 w1).bufRead (0x1000 + 4 * i + j) = 0#8 := by
    intro j hj
    rw [orderImage_read w0 w1 _ (by omega) (by omega), if_neg (by omega), if_neg (by omega)]
  have r0 := hr 0 (by omega)
  simp only [Nat.add_zero] at r0
  simp only [State.windowWord, State.bufReadBE32, windowAddress, Config.winBase, r0, hr 1 (by omega), hr 2 (by omega),
    hr 3 (by omega)]
  decide

/-! Well-formedness: a word that each check refuses -/

/-- V-EN-9, V-EN-10: RES0 = 1; bit 9. -/
theorem test_wf_reserved : wordReservedClear 0x00000012#32 = false ∧ wordReservedClear 0x00000202#32 = false := by decide

/-- V-EN-1, V-EN-8: OP 0 and OP 4. -/
theorem test_wf_operation : wordOperationKnown 0x00000000#32 = false ∧ wordOperationKnown 0x00000004#32 = false := by
  decide

/-- V-EN-3, V-EN-7: TGT with DETECT and with CHECKSUM. -/
theorem test_wf_target : wordTargetAllowed 0x00000101#32 = false ∧ wordTargetAllowed 0x00000103#32 = false := by decide

/-! Decoding: words written out from 30_encoding.md R68: RES1 (23 bits), TGT, RES0 (4 bits), OP (4 bits) -/

theorem test_decode_detect : decode 0b00000000000000000000000_0_0000_0001#32 = .legal .detect := by decide

theorem test_decode_normalize :
    decode 0b00000000000000000000000_0_0000_0010#32 = .legal (.normalize .native) ∧
      decode 0b00000000000000000000000_1_0000_0010#32 = .legal (.normalize .u16LittleEndian) := by decide

theorem test_decode_checksum : decode 0b00000000000000000000000_0_0000_0011#32 = .legal .checksum := by decide

/-- V-EN-1, V-EN-3, V-EN-7 to V-EN-12. -/
theorem test_decode_illegal :
    decode 0x00000000#32 = .illegal .operation ∧ decode 0x00000101#32 = .illegal .target ∧
      decode 0x00000103#32 = .illegal .target ∧ decode 0x00000004#32 = .illegal .operation ∧
      decode 0x0000000F#32 = .illegal .operation ∧ decode 0x00000012#32 = .illegal .reservedBits ∧
      decode 0x00000202#32 = .illegal .reservedBits ∧ decode 0x80000003#32 = .illegal .reservedBits ∧
      decode 0xFFFFFFFF#32 = .illegal .reservedBits := by decide

/-- A number too wide for a command word is none; bits at and above nbits are not the word's. -/
theorem test_decodeTableWord :
    decodeTableWord 40 0x0100000001 = none ∧ decodeTableWord 8 0x102 = some (.normalize .native) := by decide

/-! DETECT (95_test_vectors.md section 3) -/

/-- V-DT-2 to V-DT-4, V-DT-7, V-DT-8, V-DT-10, V-DT-11. -/
theorem test_detector :
    (image 3#32 [0x80, 0x37, 0x12, 0x40]).detect = .undetermined ∧
      (image 4#32 [0x80, 0x37, 0x12, 0x40]).detect = .native ∧
      (image 4#32 [0x37, 0x80, 0x40, 0x12]).detect = .u16LittleEndian ∧
      (image 4#32 [0xFF, 0xFF, 0xFF, 0xFF]).detect = .undetermined ∧
      (image 4#32 [0x40, 0x12, 0x37, 0x80]).detect = .undetermined ∧
      (image 4#32 [0x37, 0x80, 0x12, 0x40]).detect = .undetermined ∧
      (image 5#32 [0x80, 0x37, 0x12, 0x40, 0x99]).detect = .native := by decide

/-- The next state of a command's completion. -/
def after (i : Instr) (s : State) : State :=
  match exec i s with
  | .next t => t
  | _ => base

/-- V-DT-4: the STATUS word that HOST reads after DETECT. -/
theorem test_detect_status :
    ((after .detect (image 4#32 [0x37, 0x80, 0x40, 0x12])).readStatus).1 = 0x00000200#32 := by decide

/-- The bytes at addresses 0 to 7. -/
def bytes8 (s : State) : List Byte := [0, 1, 2, 3, 4, 5, 6, 7].map s.bufRead

/-! NORMALIZE (95_test_vectors.md section 4) -/

/-- V-NM-1 and V-NM-3: the swap, both ways. -/
theorem test_normalize_swap :
    bytes8 (after (.normalize .native) u16le8) = [0x80, 0x37, 0x12, 0x40, 0xBB, 0xAA, 0xDD, 0xCC] ∧
      (after (.normalize .native) u16le8).order = .native ∧
      bytes8 (after (.normalize .u16LittleEndian) native8) = [0x37, 0x80, 0x40, 0x12, 0xAA, 0xBB, 0xCC, 0xDD] := by decide

/-- V-NM-4, V-NM-5, V-NM-6, V-NM-9: the errors and their priority; V-NM-4 as P2 reads STATUS: 0x00000120. -/
theorem test_normalize_errors :
    (after (.normalize .u16LittleEndian) { native8 with len := 7#32 }).readStatus.1 = 0x00000120#32 ∧
      (after (.normalize .native) (image 5#32 [0x12, 0x34, 0x56, 0x78, 0x9A])).err = .unknownOrdering ∧
      (after (.normalize .u16LittleEndian) (image 3#32 [0x80, 0x37, 0x12])).err = .unknownOrdering ∧
      (after (.normalize .native) { native8 with len := 7#32 }).err = .oddLength := by decide

/-! CHECKSUM (95_test_vectors.md sections 5 and 6) -/

/-- The row (t1, t2, t3, t4, t5, t6) of a vector. -/
def row (t1 t2 t3 t4 t5 t6 : Word) : Acc := { t1 := t1, t2 := t2, t3 := t3, t4 := t4, t5 := t5, t6 := t6 }

/-- V-AS-3, V-AS-4, V-AS-6 to V-AS-11, V-AS-14, V-AS-15 and V-AS-16: ACC_STEP. -/
theorem test_accStep :
    accStep 0x0000001F#32 accInit =
        row 0x71949BD0#32 0x78CA4DD3#32 0xF8CA4DC3#32 0xF8CA4DDC#32 0x78CA4DEB#32 0xF8CA4DFB#32 ∧
      accStep 0x00000020#32 accInit =
        row 0xF1949BB8#32 0xF8CA4DFC#32 0xF8CA4DFC#32 0xF8CA4DDC#32 0xF8CA4DFC#32 0xF8CA4DFC#32 ∧
      accStep 0x0735B223#32 accInit =
        row 0x2E0CBAB3#32 0xC167DCC4#32 0xFFFFFFFF#32 0xF8CA4DDC#32 0x3277DEF4#32 0xFFFFFFFF#32 ∧
      accStep 0x0735B224#32 accInit =
        row 0x63DB1014#32 0x8B916F9C#32 0xFFFFFFF8#32 0xF8CA4DDD#32 0x6C25701C#32 0x00000000#32 ∧
      accStep 0xF8CA4DDB#32 accInit =
        row 0x19253B6D#32 0x270C1FB2#32 0x00000007#32 0xF8CA4DDD#32 0xD890A04A#32 0xF1949BB7#32 ∧
      accStep 0xF8CA4DDC#32 accInit =
        row 0x29670D41#32 0xF1949BB8#32 0x00000000#32 0xF8CA4DDD#32 0xC856F2B9#32 0xF1949BB8#32 ∧
      accStep 0xFFFFFFFF#32 accInit =
        row 0x00000000#32 0xFFFFFFF8#32 0x0735B223#32 0xF8CA4DDD#32 0xF8CA4DDB#32 0xF8CA4DDB#32 ∧
      accStep 0x12345678#32 accInit =
        row 0x5BB32226#32 0x80D8798A#32 0xEAFE1BA4#32 0xF8CA4DDD#32 0x70DC8232#32 0x0AFEA454#32 ∧
      accStep 0x00000001#32 (accStep 0x00000002#32 accInit) =
        row 0xEA5EE9A9#32 0xF8CA4DD6#32 0xF8CA4DDF#32 0xF8CA4DDC#32 0xF8CA4DE6#32 0xF8CA4DDF#32 ∧
      accStep 0xFFFFFFFF#32 (accStep 0xFFFFFFFF#32 accInit) =
        row 0x0735B225#32 0xF8CA4DDD#32 0xF8CA4DDC#32 0xF8CA4DDE#32 0xF8CA4DDA#32 0xF8CA4DDA#32 ∧
      accStep 0x00000001#32 (row 0#32 0#32 0#32 0xFFFFFFFF#32 0#32 0xFFFFFFFF#32) =
        row 0x00000003#32 0x00000001#32 0x00000001#32 0x00000000#32 0x00000002#32 0x00000000#32 := by decide

/-- V-CS-8, V-CS-11, V-CS-12: the two errors and their priority; ACC_FINAL of V-AS-9. -/
theorem test_checksum_errors :
    (after .checksum { base with len := 0x100FFF#32 }).err = .notLongEnough ∧
      (after .checksum { base with len := 0x101000#32, build := { build0 with readFail := [0x100FFF] } }).err = .readError ∧
      (after .checksum { base with len := 0x000FFF#32, build := { build0 with readFail := [0x1000] } }).err =
        .notLongEnough ∧
      (accStep 0xF8CA4DDC#32 accInit).final1 = 0x095ED665#32 ∧
      (accStep 0xF8CA4DDC#32 accInit).final2 = 0x10A56440#32 := by decide

/-! HOST (95_test_vectors.md section 7) -/

/-- V-ST-1, V-ST-2, V-ST-6: reads after reset. -/
theorem test_reads_after_reset :
    (base.regRead offStatus).1 = 0#32 ∧ (base.regRead offLen).1 = 0#32 ∧ (base.regRead offCsum1).1 = 0#32 ∧
      (base.regRead offCsum2).1 = 0#32 ∧ (base.regRead offCmd).1 = 0#32 ∧ (base.regRead 0x20#32).1 = 0#32 := by decide

/-- V-ST-3, V-ST-4: a write to STATUS is ignored; LEN is clamped. -/
theorem test_writes :
    ((hostStep (idle (wr32 offStatus 0xFFFFFFFF#32) [])).regRead offStatus).1 = 0#32 ∧
      (hostStep (idle (wr32 offLen 0xFFFFFFFF#32) [])).len = 0x00101000#32 := by decide

/-- V-ST-7, V-ST-8, and V-ST-9 where the write lands first: FAULT. -/
theorem test_faults :
    (hostStep (idle (.rd offStatus .w16 0) [])).fault = true ∧
      (hostStep (idle (.wrb 0x101000#32 (.imm 0#8)) [])).fault = true ∧
      (hostStep (busy (.wrb 0#32 (.imm 0#8)) [])).fault = true ∧
      (hostStep (idle (.wrb 0x100FFF#32 (.imm 0#8)) [])).fault = false := by decide

/-- V-ST-5: the second command word is lost. -/
theorem test_lost :
    (hostStep (busy (wr32 offCmd 0x00000001#32) [])).lost = true ∧
      (hostStep (busy (wr32 offCmd 0x00000003#32) [])).cmdl = 0x00000001#32 := by decide

/-- `patch` of P3 writes checksum1 big-endian: byte k of 0xF8CA4DDC. -/
theorem test_patch_bytes :
    [0, 1, 2, 3].map (byteOfWord 0xF8CA4DDC#32) = [0xF8#8, 0xCA#8, 0x4D#8, 0xDC#8] ∧
      progPatch 0 1 =
        [rd32 0x0C#32 0, rd32 0x10#32 1, .wrb 0x10#32 (.var 0 0), .wrb 0x11#32 (.var 0 1), .wrb 0x12#32 (.var 0 2),
          .wrb 0x13#32 (.var 0 3), .wrb 0x14#32 (.var 1 0), .wrb 0x15#32 (.var 1 1), .wrb 0x16#32 (.var 1 2),
          .wrb 0x17#32 (.var 1 3)] := by decide

/-- The reset input abandons the command and keeps FAULT (70_reset_and_hazards.md R141). -/
theorem test_reset_input :
    (hostStep { busy .reset [] with fault := true, lost := true }).busy = false ∧
      (hostStep { busy .reset [] with fault := true, lost := true }).lost = false ∧
      (hostStep { busy .reset [] with fault := true, lost := true }).fault = true := by decide

/-! Witnesses: for each statement, a state and operands that meet its hypotheses together -/

theorem witness_LegalWordsAreFour : decode 0x00000102#32 = .legal (.normalize .u16LittleEndian) := by decide

theorem witness_DecodeEncodeAgree :
    Instr.wellFormed (.normalize .u16LittleEndian) = true ∧ decode 0x00000003#32 = .legal .checksum := by decide

/-- A word for each clause: reserved bits at both ends of their fields, the four legal words, TGT where it may not be, and OP 0,
4, 15. -/
theorem witness_DecoderFollowsFields :
    (0x00000010 / 16) % 16 ≠ 0 ∧ (0x00000080 / 16) % 16 ≠ 0 ∧ 0x00000200 / 512 ≠ 0 ∧ 0x80000000 / 512 ≠ 0 ∧
      (0x00000102 / 16) % 16 = 0 ∧ 0x00000102 / 512 = 0 ∧ (0x00000102 / 256) % 2 = 1 ∧ 0x00000102 % 16 = 2 ∧
      (0x00000001 / 256) % 2 = 0 ∧ 0x00000001 % 16 = 1 ∧ 0x00000002 % 16 = 2 ∧ 0x00000003 % 16 = 3 ∧
      (0x00000101 / 256) % 2 = 1 ∧ 0x00000101 % 16 = 1 ∧ 0x00000103 % 16 = 3 ∧ 0x0000000F % 16 ≠ 1 ∧
      0x0000000F % 16 ≠ 2 ∧ 0x0000000F % 16 ≠ 3 := by decide

theorem witness_StepRunsDecodedInstruction :
    (command 0x00000001#32).busy = true ∧ (command 0x00000001#32).events = [] ∧
      decode (command 0x00000001#32).cmdl = .legal .detect ∧
      decodeTableWord 32 0x00000102 = some (.normalize .u16LittleEndian) := by decide

theorem witness_IllegalWordCompletes :
    (command 0x00000103#32).busy = true ∧ (command 0x00000103#32).events = [] ∧
      (command 0x00000103#32).tainted = false ∧ decode (command 0x00000103#32).cmdl = .illegal .target := by decide

theorem witness_CompletionClearsBusy :
    (busy .wait []).busy = true ∧ (command 0x00000003#32).busy = true ∧ (command 0x00000003#32).latency = 0 ∧
      base.busy = false ∧ base.events = [] := by decide

theorem witness_BusyCommandCompletes : (busy .wait []).busy = true ∧ (busy .wait []).latency = 1 := by decide

/-- Each clause at its bound: LEN 3; LEN 4 with either magic; LEN 4 with neither. -/
theorem witness_DetectorClassifies :
    (image 3#32 [0x80, 0x37, 0x12, 0x40]).len.toNat < 4 ∧
      4 ≤ (image 4#32 [0x80, 0x37, 0x12, 0x40]).len.toNat ∧
      (image 4#32 [0x80, 0x37, 0x12, 0x40]).bufReadBE32 0 = 0x80371240#32 ∧
      (image 4#32 [0x37, 0x80, 0x40, 0x12]).bufReadBE32 0 = 0x37804012#32 ∧
      (image 4#32 [0x80, 0x37, 0x12, 0x41]).bufReadBE32 0 ≠ 0x80371240#32 ∧
      (image 4#32 [0x80, 0x37, 0x12, 0x41]).bufReadBE32 0 ≠ 0x37804012#32 := by decide

/-- Two states that differ, with the same LEN and the same bytes 0..3. -/
theorem witness_DetectorReadsMagicOnly :
    native8.len = ({ native8 with buf := cellsFrom 0 [0x80, 0x37, 0x12, 0x40] } : State).len ∧
      ∀ a, a < 4 → native8.bufRead a = ({ native8 with buf := cellsFrom 0 [0x80, 0x37, 0x12, 0x40] } : State).bufRead a := by
  decide

theorem witness_DetectCompletes : native8.tainted = false := by decide

theorem witness_NormalizeRefusesUnknownOrdering : base.tainted = false ∧ base.detect = .undetermined := by decide

theorem witness_NormalizeRefusesOddLength :
    ({ native8 with len := 7#32 } : State).tainted = false ∧ ({ native8 with len := 7#32 } : State).detect ≠ .undetermined ∧
      ({ native8 with len := 7#32 } : State).len.toNat % 2 = 1 := by decide

theorem witness_NormalizeToCurrentIsNoOp :
    native8.tainted = false ∧ native8.len.toNat % 2 = 0 ∧ native8.detect = targetTag .native := by decide

theorem witness_NormalizeSwapsEveryPair :
    native8.tainted = false ∧ native8.len.toNat % 2 = 0 ∧ native8.detect ≠ .undetermined ∧
      native8.detect ≠ targetTag .u16LittleEndian := by decide

theorem witness_SwapReachesTarget :
    u16le8.tainted = false ∧ u16le8.len.toNat % 2 = 0 ∧ u16le8.detect ≠ .undetermined ∧
      u16le8.detect ≠ targetTag .native ∧ ∃ t, exec (.normalize .native) u16le8 = .next t :=
  ⟨by decide, by decide, by decide, by decide, _, rfl⟩

theorem witness_NormalizeRoundTrip :
    u16le8.tainted = false ∧ u16le8.len.toNat % 2 = 0 ∧ u16le8.detect = targetTag .u16LittleEndian ∧
      Target.native ≠ .u16LittleEndian := by decide

/-- A failing, a no-op and a swapping NORMALIZE that complete. -/
theorem witness_NormalizeOrderIsDetected :
    base.tainted = false ∧ (∃ t, exec (.normalize .native) base = .next t ∧ t.err = .unknownOrdering) ∧
      (∃ t, exec (.normalize .native) { native8 with len := 7#32 } = .next t ∧ t.err = .oddLength) ∧
      ∃ t, exec (.normalize .native) native8 = .next t ∧ t.err = .noError :=
  ⟨by decide, ⟨_, rfl, by decide⟩, ⟨_, rfl, by decide⟩, ⟨_, rfl, by decide⟩⟩

theorem witness_FailedNormalizeKeepsBuf :
    base.tainted = false ∧ ∃ t, exec (.normalize .native) base = .next t ∧ t.err ≠ .noError :=
  ⟨by decide, _, rfl, by decide⟩

theorem witness_NormalizeFrame :
    native8.tainted = false ∧ (∃ t, exec (.normalize .native) native8 = .next t) ∧ native8.detect = targetTag .native ∧
      base.detect = .undetermined ∧ ({ native8 with len := 7#32 } : State).len.toNat % 2 = 1 :=
  ⟨by decide, ⟨_, rfl⟩, by decide, by decide, by decide⟩

theorem witness_ChecksumRefusesShortBuffer :
    ({ base with len := 0x100FFF#32 } : State).tainted = false ∧
      ({ base with len := 0x100FFF#32 } : State).len.toNat < 0x101000 := by decide

/-- The last window byte unreadable, V-CS-11; and a fault-free memory. -/
theorem witness_ChecksumReportsReadError :
    (0x101000 ≤ ({ base with len := 0x101000#32 } : State).len.toNat) ∧
      (∃ a, 0x1000 ≤ a ∧ a < 0x101000 ∧ Build.fails { build0 with readFail := [0x100FFF] } a = true) ∧
      (∀ a, base.build.fails a = false) ∧ ∃ t, exec .checksum base = .next t :=
  ⟨by decide, ⟨0x100FFF, by decide, by decide, by decide⟩, fun _ => rfl, _, rfl⟩

theorem witness_ChecksumIsTheRecurrence : checksumReady zeroImage :=
  ⟨rfl, by decide, fun _ _ _ => rfl⟩

theorem witness_AllZeroWindowChecksum :
    checksumReady zeroImage ∧ ∀ a, 0x1000 ≤ a → a < 0x101000 → zeroImage.bufRead a = 0#8 :=
  ⟨witness_ChecksumIsTheRecurrence, zeroImage_read⟩

/-- A second state with the same window and another header byte. -/
theorem witness_ChecksumDependsOnWindowOnly :
    checksumReady zeroImage ∧ checksumReady (zeroImage.bufWrite 0x10 0xF8#8) ∧
      ∀ a, 0x1000 ≤ a → a < 0x101000 → zeroImage.bufRead a = (zeroImage.bufWrite 0x10 0xF8#8).bufRead a :=
  ⟨witness_ChecksumIsTheRecurrence, ⟨rfl, by decide, fun _ _ _ => rfl⟩,
    fun a h _ => (State.bufRead_bufWrite_ne _ (by omega) _).symm⟩

theorem orderImage_word (w0 w1 : Byte) :
    (orderImage w0 w1).windowWord 0 = bytesBE 0#8 0#8 0#8 w0 ∧ (orderImage w0 w1).windowWord 1 = bytesBE 0#8 0#8 0#8 w1 := by
  have r : ∀ a, 0x1000 ≤ a → a < 0x101000 → _ := orderImage_read w0 w1
  constructor
  · simp [State.windowWord, State.bufReadBE32, windowAddress, Config.winBase, r 0x1000, r 0x1001, r 0x1002, r 0x1003]
  · simp [State.windowWord, State.bufReadBE32, windowAddress, Config.winBase, r 0x1004, r 0x1005, r 0x1006, r 0x1007]

/-- Both clauses: the words 1, 2 and the words 2, 1. -/
theorem witness_WordOrderMatters :
    checksumReady (orderImage 1#8 2#8) ∧ (∀ i, 2 ≤ i → i < 0x40000 → (orderImage 1#8 2#8).windowWord i = 0#32) ∧
      (orderImage 1#8 2#8).windowWord 0 = 1#32 ∧ (orderImage 1#8 2#8).windowWord 1 = 2#32 ∧
      checksumReady (orderImage 2#8 1#8) ∧ (∀ i, 2 ≤ i → i < 0x40000 → (orderImage 2#8 1#8).windowWord i = 0#32) ∧
      (orderImage 2#8 1#8).windowWord 0 = 2#32 ∧ (orderImage 2#8 1#8).windowWord 1 = 1#32 := by
  refine ⟨⟨rfl, by decide, fun _ _ _ => rfl⟩, orderImage_tail _ _, ?_, ?_, ⟨rfl, by decide, fun _ _ _ => rfl⟩,
    orderImage_tail _ _, ?_, ?_⟩
  all_goals first | rw [(orderImage_word _ _).1]; decide | rw [(orderImage_word _ _).2]; decide

theorem witness_StorelessFrame :
    native8.tainted = false ∧ (∃ t, exec .detect native8 = .next t) ∧ ∃ t, exec .checksum native8 = .next t ∧ t.err ≠ .noError :=
  ⟨by decide, ⟨_, rfl⟩, _, rfl, by decide⟩

theorem witness_CodesByCommand :
    (∃ t, exec .detect base = .next t) ∧ (∃ t, exec (.normalize .native) base = .next t) ∧
      (∃ t, exec .checksum base = .next t) ∧ decode (command 0#32).cmdl = .illegal .operation ∧
      (∃ t, engineStep (command 0#32) = .next t) ∧ ∃ t, step (idle (wr32 0x00#32 3#32) []) = .next t :=
  ⟨⟨_, rfl⟩, ⟨_, rfl⟩, ⟨_, rfl⟩, by decide, ⟨_, rfl⟩, _, rfl⟩

/-- Two states that differ in CSUM1 only. -/
theorem witness_ErrorsAreDeterministic :
    native8.tainted = false ∧ ({ native8 with csum1 := 1#32 } : State).tainted = false ∧
      native8.len = ({ native8 with csum1 := 1#32 } : State).len ∧
      native8.build.readFail = ({ native8 with csum1 := 1#32 } : State).build.readFail ∧
      ∀ a, native8.bufRead a = ({ native8 with csum1 := 1#32 } : State).bufRead a :=
  ⟨by decide, by decide, by decide, by decide, fun _ => rfl⟩

theorem witness_AcceptLatchesCommand :
    (idle (wr32 0x00#32 3#32) []).busy = false ∧
      (idle (wr32 0x00#32 3#32) []).events = .wr 0x00#32 .w32 (.imm 3#32) :: [] := by decide

theorem witness_CmdWriteWhileBusyIsLost :
    (busy (wr32 0x00#32 1#32) []).busy = true ∧ hostNext (busy (wr32 0x00#32 1#32) []) (.wr 0x00#32 .w32 (.imm 1#32)) [] ∧
      hostNext (busy .reset []) .reset [] ∧ (∃ t, step (busy .reset []) = .next t) ∧
      (idle (wr32 0x00#32 3#32) []).busy = false ∧ ∃ t, step (idle (wr32 0x00#32 3#32) []) = .next t :=
  ⟨by decide, ⟨by decide, rfl⟩, ⟨by decide, rfl⟩, ⟨_, rfl⟩, by decide, _, rfl⟩

/-- v = BUF_CAP, and v above it; a read; a completion; a command whose inputs changed. -/
theorem witness_LenIsClamped :
    Build.wf build0 = true ∧ hostNext (idle (wr32 0x08#32 0x101000#32) []) (.wr 0x08#32 .w32 (.imm 0x101000#32)) [] ∧
      hostNext (busy (wr32 0x08#32 0x101001#32) []) (.wr 0x08#32 .w32 (.imm 0x101001#32)) [] ∧
      hostNext (idle (rd32 0x08#32 0) []) (.rd 0x08#32 .w32 0) [] ∧ (command 2#32).engineTurn = true ∧
      (∃ t, step (command 2#32) = .next t) ∧ ({ command 2#32 with tainted := true } : State).tainted = true :=
  ⟨by decide, ⟨by decide, rfl⟩, ⟨by decide, rfl⟩, ⟨by decide, rfl⟩, by decide, ⟨_, rfl⟩, rfl⟩

theorem witness_StatusLayout :
    hostNext (idle (rd32 0x04#32 0) []) (.rd 0x04#32 .w32 0) [] ∧ (idle (rd32 0x04#32 0) []).busy = false ∧
      hostNext (busy (rd32 0x04#32 0) []) (.rd 0x04#32 .w32 0) [] ∧
      hostNext (idle (wr32 0x04#32 1#32) []) (.wr 0x04#32 .w32 (.imm 1#32)) [] :=
  ⟨⟨by decide, rfl⟩, by decide, ⟨by decide, rfl⟩, ⟨by decide, rfl⟩⟩

theorem witness_ReadsWhileBusy :
    (busy (rd32 0x04#32 0) []).busy = true ∧ hostNext (busy (rd32 0x04#32 0) []) (.rd 0x04#32 .w32 0) [] ∧
      hostNext (busy (rd32 0x08#32 0) []) (.rd 0x08#32 .w32 0) [] ∧
      hostNext (busy (rd32 0x0C#32 0) []) (.rd 0x0C#32 .w32 0) [] ∧
      hostNext (busy (rd32 0x10#32 0) []) (.rd 0x10#32 .w32 0) [] ∧
      hostNext (busy (rd32 0x00#32 0) []) (.rd 0x00#32 .w32 0) [] ∧ (1 : Nat) ≠ 0 :=
  ⟨by decide, ⟨by decide, rfl⟩, ⟨by decide, rfl⟩, ⟨by decide, rfl⟩, ⟨by decide, rfl⟩, ⟨by decide, rfl⟩, by decide⟩

/-- Offsets 0x00 and 0x3C; 0x0C, 0x10 and 0x14 meet the other clauses in the same way. -/
theorem witness_ReadsWhileIdle :
    (idle (rd32 0x00#32 0) []).busy = false ∧ (0x00#32 : Word).toNat % 4 = 0 ∧ (0x0C#32 : Word).toNat % 4 = 0 ∧
      (0x10#32 : Word).toNat % 4 = 0 ∧ (0x14#32 : Word).toNat % 4 = 0 ∧ 0x14 ≤ (0x14#32 : Word).toNat ∧
      (0x3C#32 : Word).toNat % 4 = 0 ∧ (0x3C#32 : Word).toNat < 0x40 ∧
      (idle (rd32 0x3C#32 0) []).events = .rd 0x3C#32 .w32 0 :: [] := by decide

theorem witness_ReservedSlotsReadZero :
    (0x14#32 : Word).toNat % 4 = 0 ∧ 0x14 ≤ (0x14#32 : Word).toNat ∧ (0x3C#32 : Word).toNat ≤ 0x3C ∧
      hostNext (busy (rd32 0x14#32 0) []) (.rd 0x14#32 .w32 0) [] ∧
      hostNext (idle (wr32 0x3C#32 1#32) []) (.wr 0x3C#32 .w32 (.imm 1#32)) [] :=
  ⟨by decide, by decide, by decide, ⟨by decide, rfl⟩, ⟨by decide, rfl⟩⟩

theorem witness_ReadOnlyRegistersIgnoreWrites :
    (0x0C#32 : Word).toNat % 4 = 0 ∧ (0x0C#32 : Word).toNat < 0x40 ∧ (0x0C#32 : Word) ≠ 0x00#32 ∧
      (0x0C#32 : Word) ≠ 0x08#32 ∧ hostNext (busy (wr32 0x0C#32 1#32) []) (.wr 0x0C#32 .w32 (.imm 1#32)) [] :=
  ⟨by decide, by decide, by decide, by decide, by decide, rfl⟩

/-- A narrow access, an unaligned one, and the first offset beyond REG. -/
theorem witness_MalformedRegisterAccessFaults :
    Width.w16 ≠ .w32 ∧ (0x02#32 : Word).toNat % 4 ≠ 0 ∧ 0x40 ≤ (0x40#32 : Word).toNat ∧
      hostNext (idle (.wr 0x02#32 .w32 (.imm 0#32)) []) (.wr 0x02#32 .w32 (.imm 0#32)) [] ∧
      hostNext (busy (rd32 0x40#32 0) []) (.rd 0x40#32 .w32 0) [] ∧
      hostNext (idle (.rd 0x04#32 .w16 0) []) (.rd 0x04#32 .w16 0) [] :=
  ⟨by decide, by decide, by decide, ⟨by decide, rfl⟩, ⟨by decide, rfl⟩, ⟨by decide, rfl⟩⟩

/-- The first address beyond BUF. -/
theorem witness_BufAccessOutOfRangeFaults :
    build0.bufCap ≤ (0x101000#32 : Word).toNat ∧
      hostNext (idle (.wrb 0x101000#32 (.imm 0#8)) []) (.wrb 0x101000#32 (.imm 0#8)) [] ∧
      hostNext (busy (.rdb 0x101000#32 0) []) (.rdb 0x101000#32 0) [] :=
  ⟨by decide, ⟨by decide, rfl⟩, ⟨by decide, rfl⟩⟩

/-- The last address of BUF, the write alone and before a read; and a read of a byte that no HOST write precedes. -/
theorem witness_HostByteWriteThenRead :
    (idle (.wrb 0x100FFF#32 (.imm 7#8)) []).busy = false ∧
      (idle (.wrb 0x100FFF#32 (.imm 7#8)) []).events = .wrb 0x100FFF#32 (.imm 7#8) :: [] ∧
    (idle (.wrb 0x100FFF#32 (.imm 7#8)) [.rdb 0x100FFF#32 0]).busy = false ∧ (0x100FFF#32 : Word).toNat < build0.bufCap ∧
      (idle (.wrb 0x100FFF#32 (.imm 7#8)) [.rdb 0x100FFF#32 0]).events =
        .wrb 0x100FFF#32 (.imm 7#8) :: .rdb 0x100FFF#32 0 :: [] ∧
      ({ native8 with events := [.rdb 4#32 0] } : State).busy = false ∧ (4#32 : Word).toNat < build0.bufCap ∧
      ({ native8 with events := [.rdb 4#32 0] } : State).events = .rdb 4#32 0 :: [] := by decide

theorem witness_HostStoresVariableByte :
    (idle (.wrb 0x10#32 (.var 0 3)) []).busy = false ∧ (0x10#32 : Word).toNat < build0.bufCap ∧
      (idle (.wrb 0x10#32 (.var 0 3)) []).events = .wrb 0x10#32 (.var 0 3) :: [] := by decide

theorem witness_InputChangesWhileBusy :
    (busy (.wrb 0#32 (.imm 0#8)) []).busy = true ∧ (0#32 : Word).toNat < build0.bufCap ∧
      hostNext (busy (.wrb 0#32 (.imm 0#8)) []) (.wrb 0#32 (.imm 0#8)) [] ∧
      hostNext (busy (wr32 0x08#32 4#32) []) (.wr 0x08#32 .w32 (.imm 4#32)) [] ∧
      hostNext (busy (.rdb 0x100FFF#32 0) []) (.rdb 0x100FFF#32 0) [] ∧
      ({ command 2#32 with tainted := true } : State).tainted = true :=
  ⟨by decide, by decide, ⟨by decide, rfl⟩, ⟨by decide, rfl⟩, ⟨by decide, rfl⟩, rfl⟩

theorem witness_WaitPollsBusy :
    hostNext (busy .wait []) .wait [] ∧ (busy .wait []).busy = true ∧ hostNext (idle .wait []) .wait [] ∧
      (idle .wait []).busy = false :=
  ⟨⟨by decide, rfl⟩, by decide, ⟨by decide, rfl⟩, by decide⟩

theorem witness_ResetInputSetsState : hostNext (busy .reset []) .reset [] ∧ hostNext (idle .reset []) .reset [] :=
  ⟨⟨by decide, rfl⟩, ⟨by decide, rfl⟩⟩

theorem witness_StepKeepsInvariant : native8.Inv ∧ ∃ t, step native8 = .next t := by
  refine ⟨⟨by decide, by decide, by decide, by decide, by decide, by decide, by decide, by decide, by decide⟩, _, rfl⟩

/-- A violation by each kind of access, and a step from a state that FAULT marks already. -/
theorem witness_FaultMarksViolations :
    (idle (.rd 0x04#32 .w16 0) []).engineTurn = false ∧ (∃ t, step (idle (.rd 0x04#32 .w16 0) []) = .next t) ∧
      violates (idle (.rd 0x04#32 .w16 0) []) (.rd 0x04#32 .w16 0) ∧
      violates (busy (wr32 0x08#32 4#32) []) (wr32 0x08#32 4#32) ∧
      violates (busy (.wrb 0#32 (.imm 0#8)) []) (.wrb 0#32 (.imm 0#8)) ∧
      violates (idle (.rdb 0x101000#32 0) []) (.rdb 0x101000#32 0) ∧ base.setFault.fault = true :=
  ⟨by decide, ⟨_, rfl⟩, .inl (by decide), .inr (.inr (.inr ⟨rfl, rfl⟩)), .inr rfl,
    (by decide : build0.bufCap ≤ (0x101000#32 : Word).toNat), rfl⟩

theorem witness_BusyWrittenByLifecycleOnly :
    (∃ t, step (idle (wr32 0x00#32 3#32) []) = .next t) ∧ (idle (wr32 0x00#32 3#32) []).busy = false ∧
      (∃ t, step (busy .reset []) = .next t) ∧ (busy .reset []).busy = true :=
  ⟨⟨_, rfl⟩, by decide, ⟨_, rfl⟩, by decide⟩

/-- A step of ENGINE, one of HOST and one of the reset input, for the statements over all steps: OnlyChecksumWritesPair,
OnlyChecksumWritesAccumulators, OrderIsLatched, BufWrittenOnlyBy, CommandLatchedUntilAccept, ParametersNeverChange. -/
theorem witness_every_step :
    (∃ t, step (command 0x00000003#32) = .next t) ∧ (∃ t, step (idle (wr32 0x00#32 3#32) []) = .next t) ∧
      (∃ t, step (idle (.wrb 0#32 (.imm 1#8)) []) = .next t) ∧ (∃ t, step (busy .reset []) = .next t) ∧
      native8.tainted = false ∧ Instr.detect ≠ .checksum ∧ ∃ t, exec .detect native8 = .next t :=
  ⟨⟨_, rfl⟩, ⟨_, rfl⟩, ⟨_, rfl⟩, ⟨_, rfl⟩, by decide, by decide, _, rfl⟩

end Sys2Proof.Tests
end

/-!
The state's parameters, HOST's byte accesses to an idle block, and the invariant of the machine: one rule per operation on
the state, then the statements assembled from them.
-/
namespace Sys2Proof.Machine

open Sys2Proof.Claims

/-! HOST's next transaction -/

theorem hostStep_taken {s : State} {e : Event} {rest : List Event} (h : s.events = e :: rest) :
    hostStep s = runEvent e (taken s rest) :=
  hostStep_cons h

theorem ByteVal.eval_taken (v : ByteVal) (s : State) (rest : List Event) : v.eval (taken s rest) = v.eval s := by
  cases v <;> rfl

theorem State.bufAddressOk_of_lt {s : State} {a : Word} (h : a.toNat < s.build.bufCap) : s.bufAddressOk a = true :=
  decide_eq_true h

/-- A step in which HOST writes an existing byte of an idle block (20_memory.md R48, R61). -/
theorem step_wrb_idle {s : State} {a : Word} {v : ByteVal} {rest : List Event} (hidle : s.busy = false)
    (ha : a.toNat < s.build.bufCap) (he : s.events = .wrb a v :: rest) :
    step s = .next ((taken s rest).bufWrite a.toNat (v.eval s)) := by
  have hok : (taken s rest).bufAddressOk a = true := State.bufAddressOk_of_lt ha
  have hb : (taken s rest).busy = false := hidle
  rw [step_idle hidle, hostStep_taken he]
  simp [runEvent, State.hostWrb, hok, hb, ByteVal.eval_taken]

/-- A step in which HOST reads an existing byte of an idle block (20_memory.md R47, R57). -/
theorem step_rdb_idle {s : State} {a : Word} {x : Nat} {rest : List Event} (hidle : s.busy = false)
    (ha : a.toNat < s.build.bufCap) (he : s.events = .rdb a x :: rest) :
    step s = .next ((taken s rest).setVar x ((s.bufRead a.toNat).setWidth 32)) := by
  have hok : (taken s rest).bufAddressOk a = true := State.bufAddressOk_of_lt ha
  have hb : (taken s rest).busy = false := hidle
  have hread : (taken s rest).bufRead a.toNat = s.bufRead a.toNat := State.bufRead_congr rfl rfl _
  rw [step_idle hidle, hostStep_taken he]
  simp [runEvent, State.hostRdb, hok, hb, hread]

theorem bufRead_taken_bufWrite_same (s : State) (rest : List Event) (a : Nat) (v : Byte) :
    ((taken s rest).bufWrite a v).bufRead a = v :=
  State.bufRead_bufWrite_same _ a v

theorem bufRead_taken_bufWrite_ne (s : State) (rest : List Event) {a b : Nat} (h : b ≠ a) (v : Byte) :
    ((taken s rest).bufWrite a v).bufRead b = s.bufRead b :=
  (State.bufRead_bufWrite_ne _ h v).trans (State.bufRead_congr rfl rfl b)

theorem readInto_taken_setVar (s : State) (rest : List Event) (x : Nat) (v : Word) :
    readInto s ((taken s rest).setVar x v) x v :=
  ⟨State.varValue_setVar _ x v, fun _ h => State.varValue_setVar_ne _ h v⟩

/-! The parameters (00_scope.md R10) -/

@[simp] theorem State.detectRule_build (s : State) : s.detectRule.build = s.build := by
  simp [State.detectRule]

@[simp] theorem State.normalizeRule_build (s : State) (tgt : Target) : (s.normalizeRule tgt).build = s.build := by
  rcases s.normalizeRule_cases tgt with ⟨-, h⟩ | ⟨-, -, h⟩ | ⟨-, -, h⟩ | ⟨-, -, -, h⟩ <;> simp [h]

@[simp] theorem State.checksumRule_build (s : State) : s.checksumRule.build = s.build := by
  rcases s.checksumRule_cases with h | h | h <;> simp [h]

@[simp] theorem completion_build (i : Instr) (s : State) : (completion i s).build = s.build := by
  cases i <;> simp [completion]

@[simp] theorem engineNext_build (s : State) : (engineNext s).build = s.build := by
  unfold engineNext
  split
  · exact completion_build _ s
  · simp [State.illegalCommand]

@[simp] theorem runEvent_build (e : Event) (s : State) : (runEvent e s).build = s.build := by
  by_cases he : e = .reset
  · subst he; rfl
  · obtain ⟨-, -, -, -, -, -, hbuild⟩ := runEvent_keeps he s
    exact hbuild

@[simp] theorem hostStep_build (s : State) : (hostStep s).build = s.build := by
  unfold hostStep
  split <;> simp

/-! The data part of the invariant, which a command's rule keeps before BUSY is cleared -/

/-- The part of `State.Inv` that does not speak of the command lifecycle. Between a command's rule and the end of its
completion BUSY is still 1 while ERR may hold the command's code, so the rules keep this part and not the whole. -/
structure State.DataInv (s : State) : Prop where
  build : s.build.wf = true
  bufRising : Memory.wf s.buf = true
  bufBelow : sparseBelow s.build.bufCap s.buf = true
  lenBound : s.len.toNat ≤ s.build.bufCap
  drawn : s.bufDraw < s.draws
  varsRising : sparseRisingFrom 0 s.vars = true

theorem State.Inv.data {s : State} (h : s.Inv) : s.DataInv := { h with }

/-- With no command in the block the data part is the whole invariant. -/
theorem State.DataInv.inv_of_idle {s : State} (h : s.DataInv) (hbusy : s.busy = false) (htaint : s.tainted = false)
    (hlat : s.latency = 0) : s.Inv :=
  { h with
    busyErr := fun hb => by simp [hbusy] at hb
    taintedFault := fun ht => by simp [htaint] at ht
    idleLatency := fun _ => hlat }

section DataRules

variable {s : State} (h : s.DataInv)
include h

theorem State.DataInv.setOrder (o : OrderTag) : (s.setOrder o).DataInv := { h with }

theorem State.DataInv.raiseErr (code : ErrCode) : (s.raiseErr code).DataInv := { h with }

theorem State.DataInv.complete : s.complete.DataInv := { h with }

theorem State.DataInv.latchChecksum (a : Acc) : (s.latchChecksum a).DataInv := { h with }

theorem State.DataInv.releaseAcc : s.releaseAcc.DataInv := { h with drawn := Nat.lt_succ_of_lt h.drawn }

/-- BUF that became unspecified lists nothing, and its free bytes are of the newest draw. -/
theorem State.DataInv.forgetBuf : s.forgetBuf.DataInv :=
  { h with bufRising := rfl, bufBelow := rfl, drawn := Nat.lt_succ_self s.draws }

/-- The pairs swapped all lie below BUF_CAP, as LEN does (41_normalizer.md R95). -/
theorem State.DataInv.swapPairs {n : Nat} (hn : 2 * n ≤ s.build.bufCap) : (swapPairs n s).DataInv where
  build := by simpa using h.build
  bufRising := swapPairs_wf n s h.bufRising
  bufBelow := by simpa using swapPairs_below n s hn h.bufBelow
  lenBound := by simpa using h.lenBound
  drawn := by simpa using h.drawn
  varsRising := by simpa using h.varsRising

theorem State.DataInv.detectRule : s.detectRule.DataInv := (h.setOrder _).complete

theorem State.DataInv.normalizeRule (tgt : Target) : (s.normalizeRule tgt).DataInv := by
  rcases s.normalizeRule_cases tgt with ⟨-, hr⟩ | ⟨-, -, hr⟩ | ⟨-, -, hr⟩ | ⟨-, -, -, hr⟩ <;> rw [hr]
  · exact (h.setOrder _).raiseErr _
  · exact (h.setOrder _).raiseErr _
  · exact (h.setOrder _).complete
  · have hpairs : 2 * (s.len.toNat / 2) ≤ s.build.bufCap := by have := h.lenBound; omega
    exact ((h.swapPairs hpairs).setOrder _).complete

theorem State.DataInv.checksumRule : s.checksumRule.DataInv := by
  rcases s.checksumRule_cases with hr | hr | hr <;> rw [hr]
  · exact h.raiseErr _
  · exact h.raiseErr _
  · exact (h.latchChecksum _).releaseAcc.complete

/-- The end of a command, marked or not, leaves an idle block that meets the invariant. -/
theorem State.DataInv.inv_endCommand (o : Outcomes) : (s.endCommand o).Inv := by
  have hdata : (s.endCommand o).DataInv :=
    { build := by simpa using h.build
      bufRising := by
        rcases s.endCommand_bufForm o with hb | hb <;> rw [hb]
        · exact h.bufRising
        · rfl
      bufBelow := by
        rcases s.endCommand_bufForm o with hb | hb <;> rw [hb]
        · simpa using h.bufBelow
        · rfl
      lenBound := by simpa using h.lenBound
      drawn := s.endCommand_drawn o h.drawn
      varsRising := by simpa using h.varsRising }
  exact hdata.inv_of_idle rfl rfl rfl

end DataRules

/-! ENGINE's completion keeps the invariant -/

theorem State.DataInv.inv_completion {s : State} (h : s.DataInv) (i : Instr) : (completion i s).Inv := by
  cases i with
  | detect => exact h.detectRule.inv_endCommand _
  | normalize tgt => exact (h.normalizeRule tgt).inv_endCommand _
  | checksum => exact h.checksumRule.inv_endCommand _

theorem State.DataInv.inv_engineNext {s : State} (h : s.DataInv) : (engineNext s).Inv := by
  unfold engineNext
  split
  · exact h.inv_completion _
  · exact (h.raiseErr _).inv_endCommand _

/-! What comes from outside keeps the invariant: one rule per operation -/

section HostRules

variable {s : State} (h : s.Inv)
include h

theorem State.Inv.taken (rest : List Event) : (taken s rest).Inv :=
  { h with idleLatency := fun hidle => congrArg (· - 1) (h.idleLatency hidle) }

theorem State.Inv.setFault : s.setFault.Inv :=
  { h with taintedFault := fun ht => ⟨(h.taintedFault ht).1, rfl⟩ }

theorem State.Inv.lose : s.lose.Inv := { h with }

theorem State.Inv.nextDraw : s.nextDraw.Inv := { h with drawn := Nat.lt_succ_of_lt h.drawn }

theorem State.Inv.setVar (x : Nat) (v : Word) : (s.setVar x v).Inv :=
  { h with varsRising := sparseRisingFrom_insert v (Nat.zero_le x) h.varsRising }

theorem State.Inv.bufWrite {a : Nat} (ha : a < s.build.bufCap) (v : Byte) : (s.bufWrite a v).Inv :=
  { h with
    bufRising := Memory.wf_insert a v h.bufRising
    bufBelow := sparseBelow_insert v ha h.bufBelow }

/-- BUF_CAP fits a register, so what LEN stores is the smaller number (10_state.md R29). -/
theorem State.Inv.setLen (v : Word) : (s.setLen v).Inv := by
  have hcap : s.build.bufCap ≤ 0xFFFFFFFF := by
    have hwf := h.build
    simp only [Build.wf, Bool.and_eq_true, decide_eq_true_eq] at hwf
    exact hwf.2
  have hlen : (s.clampLen v).toNat ≤ s.build.bufCap := by
    rw [State.clampLen_toNat v hcap]
    exact Nat.min_le_right ..
  exact { h with lenBound := hlen }

/-- The mark of a command whose inputs HOST changed is set together with FAULT (70_reset_and_hazards.md R148). -/
theorem State.Inv.taint (hbusy : s.busy = true) : s.taint.Inv := { h with taintedFault := fun _ => ⟨hbusy, rfl⟩ }

theorem State.Inv.accept (v : Word) : (s.accept v).Inv :=
  { h with
    busyErr := fun _ => rfl
    taintedFault := fun ht => by simp at ht
    idleLatency := fun hidle => by simp at hidle
    drawn := Nat.lt_succ_of_lt h.drawn }

/-- The reset input leaves an idle block with LEN 0 and nothing listed in BUF (70_reset_and_hazards.md R141). -/
theorem State.Inv.resetInput : s.resetInput.Inv := by
  have hdata : s.resetInput.DataInv :=
    { h.data with
      bufRising := rfl
      bufBelow := rfl
      lenBound := Nat.zero_le _
      drawn := Nat.lt_succ_self _ }
  exact hdata.inv_of_idle rfl rfl rfl

theorem State.Inv.hostWr (off : Word) (width : Width) (v : WordVal) : (s.hostWr off width v).Inv := by
  rcases s.hostWr_cases off width v with
    ⟨-, hr⟩ | ⟨-, ⟨-, -, hr⟩ | ⟨-, -, hr⟩ | ⟨-, hb, hr⟩ | ⟨-, -, hr⟩ | ⟨-, -, hr⟩⟩ <;> rw [hr]
  · exact h.setFault
  · exact h.lose
  · exact h.accept _
  · exact (h.setLen _).taint hb
  · exact h.setLen _
  · exact h

theorem State.Inv.hostRd (off : Word) (width : Width) (x : Nat) : (s.hostRd off width x).Inv := by
  rcases s.hostRd_cases off width x with ⟨-, hr⟩ | ⟨-, hr | ⟨-, hr⟩⟩ <;> rw [hr]
  · exact h.setFault
  · exact h.setVar ..
  · exact h.nextDraw.setVar ..

theorem State.Inv.hostWrb (a : Word) (v : ByteVal) : (s.hostWrb a v).Inv := by
  rcases s.hostWrb_cases a v with ⟨-, hr⟩ | ⟨hok, ⟨hb, hr⟩ | ⟨-, hr⟩⟩ <;> rw [hr]
  · exact h.setFault
  · exact (h.bufWrite (of_decide_eq_true hok) _).taint hb
  · exact h.bufWrite (of_decide_eq_true hok) _

theorem State.Inv.hostRdb (a : Word) (x : Nat) : (s.hostRdb a x).Inv := by
  rcases s.hostRdb_cases a x with ⟨-, hr⟩ | ⟨-, ⟨-, hr⟩ | ⟨-, hr⟩⟩ <;> rw [hr]
  · exact h.setFault
  · exact h.nextDraw.setVar ..
  · exact h.setVar ..

theorem State.Inv.hostWait : s.hostWait.Inv := by
  rcases s.hostWait_cases with ⟨-, hr⟩ | ⟨-, hr⟩ <;> rw [hr]
  · exact { h.nextDraw with }
  · exact h

theorem State.Inv.runEvent (e : Event) : (runEvent e s).Inv := by
  cases e with
  | wr off width v => exact h.hostWr off width v
  | rd off width x => exact h.hostRd off width x
  | wrb a v => exact h.hostWrb a v
  | rdb a x => exact h.hostRdb a x
  | wait => exact h.hostWait
  | reset => exact h.resetInput

theorem State.Inv.hostStep : (hostStep s).Inv := by
  cases he : s.events with
  | nil => rw [hostStep_nil he]; exact h
  | cons e rest => rw [hostStep_taken he]; exact (h.taken rest).runEvent e

end HostRules

/-! The statements -/

/-- Settles O52: ENGINE's completion ends in an idle block whose data its rule kept, and what comes from outside keeps the
invariant operation by operation. -/
theorem stepKeepsInvariant : Obligations.StepKeepsInvariant := by
  intro s t hinv hstep
  rcases step_cases hstep with ⟨-, rfl⟩ | ⟨-, rfl⟩
  · exact hinv.data.inv_engineNext
  · exact hinv.hostStep

/-- Settles O45: the write and the read each are one step from an idle block, and the write leaves the block idle for the
read. -/
theorem hostByteWriteThenRead : Obligations.HostByteWriteThenRead := by
  refine ⟨fun s a v rest hidle ha he => ?_, fun s a v x rest hidle ha he => ?_, fun s a x rest hidle ha he => ?_⟩
  · exact ⟨_, step_wrb_idle hidle ha he, bufRead_taken_bufWrite_same .., fun b hb => bufRead_taken_bufWrite_ne s rest hb v,
      rfl⟩
  · have hread := step_rdb_idle (s := (taken s (.rdb a x :: rest)).bufWrite a.toNat v) hidle ha rfl
    rw [bufRead_taken_bufWrite_same] at hread
    exact ⟨_, _, step_wrb_idle hidle ha he, hread, bufRead_taken_bufWrite_same ..,
      fun b hb => bufRead_taken_bufWrite_ne s _ hb v, rfl, readInto_taken_setVar .., rfl⟩
  · exact ⟨_, step_rdb_idle hidle ha he, readInto_taken_setVar .., rfl⟩

/-- Settles O60: neither agent's step changes the parameters. -/
theorem parametersNeverChange : Obligations.ParametersNeverChange := by
  intro s t hstep
  rcases step_cases hstep with ⟨-, rfl⟩ | ⟨-, rfl⟩
  · exact engineNext_build s
  · exact hostStep_build s

/-- Settles O51: the power-on state is idle, lists no byte and no variable, and BUF_CAP keeps its bounds. -/
theorem resetMeetsInvariant : Obligations.ResetMeetsInvariant := by
  have hdata : State.reset.DataInv :=
    { build := Config.build_wf
      bufRising := Memory.wf_reset
      bufBelow := rfl
      lenBound := Nat.zero_le _
      drawn := Nat.zero_lt_one
      varsRising := rfl }
  exact hdata.inv_of_idle rfl rfl rfl

end Sys2Proof.Machine

/-!
The state of the block as its two agents change it (10_state.md): ENGINE's completion as the rule of the decoded word
followed by the end that all commands share, HOST's register accesses as one equation each, and every kind of step said
once; then the statements assembled from them.
-/
namespace Sys2Proof.Machine

open Sys2Proof.Claims

/-! ENGINE's completion -/

/-- What a decoded word does before BUSY is cleared: the rule of its command, or code 5 (10_state.md R31;
30_encoding.md R76). -/
def decodedRule : Decoded → State → State
  | .legal .detect, s => s.detectRule
  | .legal (.normalize tgt), s => s.normalizeRule tgt
  | .legal .checksum, s => s.checksumRule
  | .illegal _, s => s.raiseErr .illegalCommand

/-- What a decoded word can do, whatever its inputs (60_exceptions.md R124). -/
def decodedOutcomes : Decoded → Outcomes
  | .legal .detect => detectOutcomes
  | .legal (.normalize _) => normalizeOutcomes
  | .legal .checksum => checksumOutcomes
  | .illegal _ => illegalOutcomes

/-- The state that the completion of a decoded word leaves. -/
def decodedNext (d : Decoded) (s : State) : State := (decodedRule d s).endCommand (decodedOutcomes d)

theorem completion_eq_decodedNext (i : Instr) (s : State) : completion i s = decodedNext (.legal i) s := by
  cases i <;> rfl

theorem engineNext_eq_decodedNext (s : State) : engineNext s = decodedNext (decode s.cmdl) s := by
  unfold engineNext
  cases decode s.cmdl with
  | legal i => exact completion_eq_decodedNext i s
  | illegal why => rfl

/-- NORMALIZE writes BUF, ORDER and ERR alone (41_normalizer.md R89). -/
theorem State.normalizeRule_eq (s : State) (tgt : Target) :
    s.normalizeRule tgt =
      { s with
        buf := (s.normalizeRule tgt).buf, order := (s.normalizeRule tgt).order, err := (s.normalizeRule tgt).err } := by
  rcases s.normalizeRule_cases tgt with ⟨-, h⟩ | ⟨-, -, h⟩ | ⟨-, -, h⟩ | ⟨-, -, -, h⟩ <;> rw [h]
  · rfl
  · rfl
  · rfl
  · rw [swapPairs_eq]
    rfl

/-- All that the rule of a decoded word may write. -/
theorem decodedRule_eq (d : Decoded) (s : State) :
    decodedRule d s =
      { s with
        buf := (decodedRule d s).buf, order := (decodedRule d s).order, err := (decodedRule d s).err
        csum1 := (decodedRule d s).csum1, csum2 := (decodedRule d s).csum2, acc := (decodedRule d s).acc
        widx := (decodedRule d s).widx, draws := (decodedRule d s).draws } := by
  match d with
  | .legal .detect => rfl
  | .legal (.normalize tgt) => rw [decodedRule, State.normalizeRule_eq]
  | .legal .checksum =>
    rw [decodedRule]
    rcases s.checksumRule_cases with h | h | h <;> rw [h] <;> rfl
  | .illegal _ => rfl

/-- What no command writes: LEN, LOST, CMDL, FAULT, the parameters and HOST's side (10_state.md R29, R31). -/
structure State.CommandFrame (s t : State) : Prop where
  len : t.len = s.len
  lost : t.lost = s.lost
  cmdl : t.cmdl = s.cmdl
  fault : t.fault = s.fault
  build : t.build = s.build
  events : t.events = s.events
  vars : t.vars = s.vars

theorem State.CommandFrame.trans {s t u : State} (h : s.CommandFrame t) (h' : t.CommandFrame u) : s.CommandFrame u where
  len := h'.len.trans h.len
  lost := h'.lost.trans h.lost
  cmdl := h'.cmdl.trans h.cmdl
  fault := h'.fault.trans h.fault
  build := h'.build.trans h.build
  events := h'.events.trans h.events
  vars := h'.vars.trans h.vars

theorem decodedRule_frame (d : Decoded) (s : State) : s.CommandFrame (decodedRule d s) := by
  rw [decodedRule_eq]
  exact ⟨rfl, rfl, rfl, rfl, rfl, rfl, rfl⟩

theorem State.endCommand_frame (o : Outcomes) (s : State) : s.CommandFrame (s.endCommand o) := by
  constructor <;> simp

theorem decodedNext_frame (d : Decoded) (s : State) : s.CommandFrame (decodedNext d s) :=
  (decodedRule_frame d s).trans (State.endCommand_frame _ _)

theorem engineNext_frame (s : State) : s.CommandFrame (engineNext s) := by
  rw [engineNext_eq_decodedNext]
  exact decodedNext_frame _ s

@[simp] theorem decodedNext_busy (d : Decoded) (s : State) : (decodedNext d s).busy = false := rfl

@[simp] theorem decodedNext_tainted (d : Decoded) (s : State) : (decodedNext d s).tainted = false := rfl

@[simp] theorem engineNext_busy (s : State) : (engineNext s).busy = false := by
  simp [engineNext_eq_decodedNext]

/-- A rule does not look at the mark of a command whose inputs HOST changed. -/
@[simp] theorem decodedRule_tainted (d : Decoded) (s : State) : (decodedRule d s).tainted = s.tainted := by
  rw [decodedRule_eq]

theorem decodedNext_untainted {s : State} (d : Decoded) (h : s.tainted = false) :
    decodedNext d s = { decodedRule d s with busy := false, tainted := false, latency := 0 } :=
  State.endCommand_untainted _ (by rw [decodedRule_tainted, h])

/-! The results: which command writes what -/

/-- CSUM1 and CSUM2 are the work of a CHECKSUM that succeeds (10_state.md R32). -/
theorem decodedNext_pair {s : State} (d : Decoded) (h : s.tainted = false) :
    ((decodedNext d s).csum1 = s.csum1 ∧ (decodedNext d s).csum2 = s.csum2) ∨
      (d = .legal .checksum ∧ (decodedNext d s).err = .noError) := by
  rw [decodedNext_untainted d h]
  match d with
  | .legal .detect => exact .inl ⟨rfl, rfl⟩
  | .legal (.normalize tgt) =>
    rw [decodedRule, State.normalizeRule_eq]
    exact .inl ⟨rfl, rfl⟩
  | .legal .checksum => rcases s.checksumRule_cases with hr | hr | hr <;> simp [decodedRule, hr]
  | .illegal _ => exact .inl ⟨rfl, rfl⟩

/-- The accumulators and WIDX are the work of CHECKSUM (10_state.md R34, R36). -/
theorem decodedNext_acc {d : Decoded} (hd : d ≠ .legal .checksum) (s : State) :
    (decodedNext d s).acc = s.acc ∧ (decodedNext d s).widx = s.widx := by
  match d with
  | .legal .detect => exact State.endCommand_acc _ _ rfl
  | .legal (.normalize tgt) =>
    rw [decodedNext, decodedRule, State.normalizeRule_eq]
    exact State.endCommand_acc _ _ rfl
  | .legal .checksum => exact absurd rfl hd
  | .illegal _ => exact State.endCommand_acc _ _ rfl

/-- A command that does not write ORDER leaves it, whatever HOST did (10_state.md R28). -/
theorem State.endCommand_order (o : Outcomes) (s : State) (h : o.writesOrder = false) :
    (s.endCommand o).order = s.order := by
  unfold State.endCommand State.unspecifiedResults
  cases s.tainted <;> cases o.usesAcc <;> simp [h]

/-- ORDER is the work of DETECT and NORMALIZE (10_state.md R28). -/
theorem decodedNext_order (d : Decoded) (s : State) :
    (decodedNext d s).order = s.order ∨ d = .legal .detect ∨ ∃ tgt, d = .legal (.normalize tgt) := by
  match d with
  | .legal .detect => exact .inr (.inl rfl)
  | .legal (.normalize tgt) => exact .inr (.inr ⟨tgt, rfl⟩)
  | .legal .checksum =>
    refine .inl ((State.endCommand_order _ s.checksumRule rfl).trans ?_)
    rcases s.checksumRule_cases with hr | hr | hr <;> simp [hr]
  | .illegal _ => exact .inl (State.endCommand_order _ _ rfl)

/-- A rule uses up draws and gives none back. -/
theorem decodedRule_draws (d : Decoded) (s : State) : s.draws ≤ (decodedRule d s).draws := by
  match d with
  | .legal .detect => exact Nat.le_refl _
  | .legal (.normalize tgt) =>
    have hdraws : s.draws = (s.normalizeRule tgt).draws := (congrArg State.draws (s.normalizeRule_eq tgt)).symm
    exact Nat.le_of_eq hdraws
  | .legal .checksum => rcases s.checksumRule_cases with hr | hr | hr <;> simp [decodedRule, hr]
  | .illegal _ => exact Nat.le_refl _

/-- The draw of BUF's free bytes at a marked end lies between that of the other results and the next
(70_reset_and_hazards.md R148). -/
theorem State.endCommand_tainted_draws {s : State} (o : Outcomes) (h : s.tainted = true) :
    s.draws < (s.endCommand o).bufDraw ∧ (s.endCommand o).bufDraw < (s.endCommand o).draws := by
  unfold State.endCommand State.unspecifiedResults
  rw [h]
  cases o.usesAcc with
  | false => exact ⟨Nat.lt_succ_self _, Nat.lt_succ_self _⟩
  | true => exact ⟨Nat.lt_succ_of_lt (Nat.lt_succ_self _), Nat.lt_succ_self _⟩

/-- Every marked command ends with free results (70_reset_and_hazards.md R148). -/
theorem resultsFree_of_tainted {s : State} (h : s.tainted = true) : resultsFree s := by
  have hrule : (decodedRule (decode s.cmdl) s).tainted = true := by rw [decodedRule_tainted, h]
  obtain ⟨hcsum1, hcsum2, hbuf, -, -⟩ := State.endCommand_tainted_results (decodedOutcomes (decode s.cmdl)) hrule
  obtain ⟨hlow, hhigh⟩ := State.endCommand_tainted_draws (decodedOutcomes (decode s.cmdl)) hrule
  exact ⟨decodedNext (decode s.cmdl) s, _, _, by rw [engineStep_eq, engineNext_eq_decodedNext],
    decodedRule_draws (decode s.cmdl) s, hlow, hhigh, hcsum1, hcsum2,
    fun a => by simp [State.bufRead, decodedNext, hbuf, sparseFind]⟩

/-! The detector's result after a command (10_state.md R28) -/

theorem State.magicIs_iff (s : State) (b0 b1 b2 b3 : Byte) :
    s.magicIs b0 b1 b2 b3 = true ↔ s.bufRead 0 = b0 ∧ s.bufRead 1 = b1 ∧ s.bufRead 2 = b2 ∧ s.bufRead 3 = b3 := by
  simp [State.magicIs, and_assoc]

theorem State.detect_of_short {s : State} (h : s.len.toNat < 4) : s.detect = .undetermined := by
  have hult : s.len.ult 4#32 = true := decide_eq_true h
  rw [State.detect, if_pos hult]

/-- The detector on a buffer long enough to hold a magic (40_detector.md R83). -/
theorem State.detect_of_long {s : State} (h : 4 ≤ s.len.toNat) :
    s.detect =
      if s.magicIs 0x80#8 0x37#8 0x12#8 0x40#8 then .native
      else if s.magicIs 0x37#8 0x80#8 0x40#8 0x12#8 then .u16LittleEndian
      else .undetermined := by
  have hult : s.len.ult 4#32 = false := decide_eq_false (Nat.not_lt.2 h)
  rw [State.detect, if_neg (ne_true_of_eq_false hult)]

theorem State.detect_eq_native_iff (s : State) :
    s.detect = .native ↔ 4 ≤ s.len.toNat ∧ s.magicIs 0x80#8 0x37#8 0x12#8 0x40#8 = true := by
  rcases Nat.lt_or_ge s.len.toNat 4 with hlen | hlen
  · simp [State.detect_of_short hlen, Nat.not_le.2 hlen]
  · rw [State.detect_of_long hlen]
    split
    · next hnative => simp [hlen, hnative]
    · next hnative => split <;> simp [hnative]

/-- The two magics differ in byte 0, so which the detector looks for first does not matter (40_detector.md R83). -/
theorem State.detect_eq_u16LittleEndian_iff (s : State) :
    s.detect = .u16LittleEndian ↔ 4 ≤ s.len.toNat ∧ s.magicIs 0x37#8 0x80#8 0x40#8 0x12#8 = true := by
  rcases Nat.lt_or_ge s.len.toNat 4 with hlen | hlen
  · simp [State.detect_of_short hlen, Nat.not_le.2 hlen]
  · rw [State.detect_of_long hlen]
    split
    · next hnative =>
      obtain ⟨hbyte, -⟩ := (s.magicIs_iff ..).1 hnative
      simp [State.magicIs_iff, hbyte]
    · split
      · next hswapped => simp [hlen, hswapped]
      · next hswapped => simp [hswapped]

/-- A swap exchanges the bytes of each half of the magic (41_normalizer.md R94). -/
theorem magicIs_swapPairs {n : Nat} (hn : 2 ≤ n) (s : State) (b0 b1 b2 b3 : Byte) :
    (swapPairs n s).magicIs b0 b1 b2 b3 = s.magicIs b1 b0 b3 b2 := by
  have hread : ∀ a, a < 4 → (swapPairs n s).bufRead a = s.bufRead (a ^^^ 1) := fun a ha => by
    rw [bufRead_swapPairs, if_pos (by omega)]
  rw [Bool.eq_iff_iff, State.magicIs_iff, State.magicIs_iff, hread 0 (by omega), hread 1 (by omega), hread 2 (by omega),
    hread 3 (by omega)]
  exact ⟨fun ⟨h0, h1, h2, h3⟩ => ⟨h1, h0, h3, h2⟩, fun ⟨h0, h1, h2, h3⟩ => ⟨h1, h0, h3, h2⟩⟩

/-- After a swap from the other ordering the detector's result is the target (41_normalizer.md R99). -/
theorem detect_swapPairs {s : State} {tgt : Target} (hknown : s.detect ≠ .undetermined)
    (hother : s.detect ≠ targetTag tgt) : (swapPairs (s.len.toNat / 2) s).detect = targetTag tgt := by
  cases tgt with
  | native =>
    have hs : s.detect = .u16LittleEndian := by
      cases hd : s.detect with
      | undetermined => exact absurd hd hknown
      | native => exact absurd hd hother
      | u16LittleEndian => rfl
    obtain ⟨hlen, hmagic⟩ := s.detect_eq_u16LittleEndian_iff.1 hs
    rw [targetTag, State.detect_eq_native_iff, swapPairs_len, magicIs_swapPairs (by omega)]
    exact ⟨hlen, hmagic⟩
  | u16LittleEndian =>
    have hs : s.detect = .native := by
      cases hd : s.detect with
      | undetermined => exact absurd hd hknown
      | native => rfl
      | u16LittleEndian => exact absurd hd hother
    obtain ⟨hlen, hmagic⟩ := s.detect_eq_native_iff.1 hs
    rw [targetTag, State.detect_eq_u16LittleEndian_iff, swapPairs_len, magicIs_swapPairs (by omega)]
    exact ⟨hlen, hmagic⟩

/-- NORMALIZE latches the detector's result on BUF as it leaves it, on every path (41_normalizer.md R97). -/
theorem State.normalizeRule_order (s : State) (tgt : Target) : (s.normalizeRule tgt).order = (s.normalizeRule tgt).detect := by
  rcases s.normalizeRule_cases tgt with ⟨hund, hr⟩ | ⟨-, -, hr⟩ | ⟨-, -, hr⟩ | ⟨-, hknown, hother, hr⟩ <;> rw [hr]
  · exact hund.symm
  · rfl
  · rfl
  · exact (detect_swapPairs hknown hother).symm

theorem decodedNext_order_eq_detect {s : State} {i : Instr} (h : s.tainted = false) (hi : i ≠ .checksum) :
    (decodedNext (.legal i) s).order = (decodedNext (.legal i) s).detect := by
  rw [decodedNext_untainted _ h]
  cases i with
  | detect => rfl
  | normalize tgt => exact s.normalizeRule_order tgt
  | checksum => exact absurd rfl hi

/-! HOST's register accesses, one equation each -/

theorem hostNext_of_idle {s : State} {e : Event} {rest : List Event} (hidle : s.busy = false) (he : s.events = e :: rest) :
    hostNext s e rest :=
  ⟨by simp [State.engineTurn, hidle], he⟩

theorem step_hostNext {s : State} {e : Event} {rest : List Event} (h : hostNext s e rest) :
    step s = .next (runEvent e (taken s rest)) := by
  obtain ⟨hturn, he⟩ := h
  rw [step_host hturn, hostStep_taken he]

theorem WordVal.eval_taken (v : WordVal) (s : State) (rest : List Event) : v.eval (taken s rest) = v.eval s := by
  cases v <;> rfl

theorem step_wr {s : State} {off : Word} {v : WordVal} {rest : List Event} (h : hostNext s (.wr off .w32 v) rest)
    (hok : regAccessOk off .w32 = true) : step s = .next ((taken s rest).regWrite off (v.eval s)) := by
  rw [step_hostNext h, ← WordVal.eval_taken v s rest]
  simp [runEvent, State.hostWr, hok]

/-- A register read whose value is `v` and which leaves `u` behind, before HOST takes the value. -/
theorem step_rd {s u : State} {off v : Word} {x : Nat} {rest : List Event} (h : hostNext s (.rd off .w32 x) rest)
    (hok : regAccessOk off .w32 = true) (hread : (taken s rest).regRead off = (v, u)) :
    step s = .next (u.setVar x v) := by
  rw [step_hostNext h]
  simp [runEvent, State.hostRd, hok, hread]

theorem readInto_setVar {s u : State} (h : u.vars = s.vars) (x : Nat) (v : Word) : readInto s (u.setVar x v) x v :=
  ⟨State.varValue_setVar u x v, fun _ hy => (State.varValue_setVar_ne u hy v).trans (by simp [State.varValue, h])⟩

/-! What the registers read -/

theorem State.regRead_status_busy {s : State} (h : s.busy = true) :
    s.regRead offStatus = (statusWord true s.lost 0#4 ((Config.freeWord s.draws 0).setWidth 2), s.nextDraw) := if_pos h

theorem State.regRead_status_idle {s : State} (h : s.busy = false) :
    s.regRead offStatus = (statusWord false s.lost s.err.code s.order.code, s) := by
  simp [State.regRead, State.readStatus, h]

/-- STATUS reads BUSY and LOST as they stand, and while BUSY = 0 ERR and ORDER too (10_state.md R24, R39). -/
theorem State.regRead_status_value (s : State) :
    ∃ e o, (s.regRead offStatus).1 = statusWord s.busy s.lost e o ∧
      (s.busy = false → e = s.err.code ∧ o = s.order.code) := by
  rcases Bool.eq_false_or_eq_true s.busy with h | h
  · exact ⟨_, _, by rw [State.regRead_status_busy h, h], by simp [h]⟩
  · exact ⟨_, _, by rw [State.regRead_status_idle h, h], fun _ => ⟨rfl, rfl⟩⟩

theorem State.regRead_status_state (s : State) :
    (s.regRead offStatus).2 = { s with draws := if s.busy then s.draws + 1 else s.draws } := by
  rcases Bool.eq_false_or_eq_true s.busy with h | h
  · rw [State.regRead_status_busy h, if_pos h]
    rfl
  · rw [State.regRead_status_idle h, if_neg (by simp [h])]

theorem State.regRead_len (s : State) : s.regRead offLen = (s.len, s) := rfl

theorem State.regRead_csum1 (s : State) : s.regRead offCsum1 = s.readResult s.csum1 := rfl

theorem State.regRead_csum2 (s : State) : s.regRead offCsum2 = s.readResult s.csum2 := rfl

theorem State.readResult_busy {s : State} (h : s.busy = true) (v : Word) :
    s.readResult v = (Config.freeWord s.draws 0, s.nextDraw) := if_pos h

theorem State.readResult_idle {s : State} (h : s.busy = false) (v : Word) : s.readResult v = (v, s) := by
  simp [State.readResult, h]

theorem State.regRead_cmd (s : State) : s.regRead offCmd = (0#32, s) := rfl

/-- The reserved slots read 0 (10_state.md R33). -/
theorem State.regRead_reserved {off : Word} (h : 0x14 ≤ off.toNat) (s : State) : s.regRead off = (0#32, s) := by
  have hne : ∀ r : Word, r.toNat < 0x14 → off ≠ r := fun r hr he => by subst he; omega
  unfold State.regRead
  rw [if_neg (hne _ (by decide)), if_neg (hne _ (by decide)), if_neg (hne _ (by decide)), if_neg (hne _ (by decide))]

/-- No register shows FAULT (10_state.md R40). -/
theorem State.regRead_value_fault (s : State) (b : Bool) (off : Word) :
    (State.regRead off { s with fault := b }).1 = (s.regRead off).1 := by
  simp [State.regRead, State.readStatus, State.readResult, apply_ite Prod.fst]

/-! What the register writes do -/

theorem State.regWrite_cmd_idle {s : State} (h : s.busy = false) (v : Word) : s.regWrite offCmd v = s.accept v := by
  simp [State.regWrite, State.writeCmd, h]

theorem State.regWrite_cmd_busy {s : State} (h : s.busy = true) (v : Word) : s.regWrite offCmd v = s.lose := by
  simp [State.regWrite, State.writeCmd, h]

/-- A LEN write clamps, and while BUSY = 1 it is a violation that marks the command (10_state.md R29;
70_reset_and_hazards.md R148). -/
theorem State.regWrite_len (s : State) (v : Word) :
    s.regWrite offLen v =
      { s with len := s.clampLen v, fault := s.fault || s.busy, tainted := s.tainted || s.busy } := by
  have hw : s.regWrite offLen v = s.writeLen v := rfl
  rw [hw, State.writeLen]
  cases h : s.busy <;> simp [State.setLen, State.taint, h]

theorem State.regWrite_ignored {off : Word} (hcmd : off ≠ offCmd) (hlen : off ≠ offLen) (s : State) (v : Word) :
    s.regWrite off v = s := by
  simp [State.regWrite, hcmd, hlen]

theorem regAccessOk_of_slot {off : Word} (haligned : off.toNat % 4 = 0) (hlt : off.toNat < 0x40) :
    regAccessOk off .w32 = true :=
  (regAccessOk_iff off .w32).2 ⟨rfl, haligned, hlt⟩

/-- A CMD write while BUSY = 0 is accepted (10_state.md R30). -/
theorem step_cmd_idle {s : State} {v : WordVal} {rest : List Event} (hidle : s.busy = false)
    (he : s.events = .wr offCmd .w32 v :: rest) : step s = .next ((taken s rest).accept (v.eval s)) := by
  rw [step_wr (hostNext_of_idle hidle he) (by decide), State.regWrite_cmd_idle (s := taken s rest) hidle]

/-! What a transaction of HOST can do to the command lifecycle and to FAULT -/

/-- BUSY, LOST and CMDL are written by a CMD write and by reset alone (10_state.md R25, R26, R35). -/
theorem runEvent_lifecycle {e : Event} (he : e ≠ .reset) (s : State) :
    ((runEvent e s).busy = s.busy ∧ (runEvent e s).lost = s.lost ∧ (runEvent e s).cmdl = s.cmdl) ∨
      ∃ v, e = .wr offCmd .w32 v ∧
        ((s.busy = true ∧ runEvent e s = s.lose) ∨ (s.busy = false ∧ runEvent e s = s.accept (v.eval s))) := by
  cases e with
  | wr off width v =>
    have hcmd : regAccessOk off width = true → off = offCmd → Event.wr off width v = .wr offCmd .w32 v :=
      fun hok hoff => by rw [hoff, ((regAccessOk_iff ..).1 hok).1]
    rcases s.hostWr_cases off width v with
      ⟨-, h⟩ | ⟨hok, ⟨hoff, hb, h⟩ | ⟨hoff, hb, h⟩ | ⟨-, -, h⟩ | ⟨-, -, h⟩ | ⟨-, -, h⟩⟩
    · exact .inl (by simp [runEvent, h])
    · exact .inr ⟨v, hcmd hok hoff, .inl ⟨hb, h⟩⟩
    · exact .inr ⟨v, hcmd hok hoff, .inr ⟨hb, h⟩⟩
    all_goals exact .inl (by simp [runEvent, h])
  | rd off width x => rcases s.hostRd_cases off width x with ⟨-, h⟩ | ⟨-, h | ⟨-, h⟩⟩ <;> simp [runEvent, h]
  | wrb a v => rcases s.hostWrb_cases a v with ⟨-, h⟩ | ⟨-, ⟨-, h⟩ | ⟨-, h⟩⟩ <;> simp [runEvent, h]
  | rdb a x => rcases s.hostRdb_cases a x with ⟨-, h⟩ | ⟨-, ⟨-, h⟩ | ⟨-, h⟩⟩ <;> simp [runEvent, h]
  | wait => rcases s.hostWait_cases with ⟨-, h⟩ | ⟨-, h⟩ <;> simp [runEvent, h]
  | reset => exact absurd rfl he

theorem regAccessOk_eq_false_iff (off : Word) (width : Width) :
    regAccessOk off width = false ↔ width ≠ .w32 ∨ off.toNat % 4 ≠ 0 ∨ 0x40 ≤ off.toNat := by
  rw [← Bool.not_eq_true, regAccessOk_iff, Decidable.not_and_iff_not_or_not, Decidable.not_and_iff_not_or_not,
    Nat.not_lt]

theorem State.bufAddressOk_eq_false_iff (s : State) (a : Word) : s.bufAddressOk a = false ↔ s.build.bufCap ≤ a.toNat := by
  simp [State.bufAddressOk]

theorem violates_wr_iff (s : State) (off : Word) (width : Width) (v : WordVal) :
    violates s (.wr off width v) ↔ regAccessOk off width = false ∨ (s.busy = true ∧ off = offLen) := by
  rw [regAccessOk_eq_false_iff, or_assoc, or_assoc]
  rfl

theorem violates_rd_iff (s : State) (off : Word) (width : Width) (x : Nat) :
    violates s (.rd off width x) ↔ regAccessOk off width = false :=
  (regAccessOk_eq_false_iff off width).symm

theorem violates_wrb_iff (s : State) (a : Word) (v : ByteVal) :
    violates s (.wrb a v) ↔ s.bufAddressOk a = false ∨ s.busy = true := by
  rw [State.bufAddressOk_eq_false_iff]
  rfl

theorem violates_rdb_iff (s : State) (a : Word) (x : Nat) : violates s (.rdb a x) ↔ s.bufAddressOk a = false :=
  (s.bufAddressOk_eq_false_iff a).symm

theorem violates_taken (s : State) (rest : List Event) (e : Event) : violates (taken s rest) e ↔ violates s e := by
  cases e <;> rfl

/-- HOST's transaction sets FAULT where it is a violation, and leaves it otherwise (60_exceptions.md R136). -/
theorem runEvent_fault (e : Event) (s : State) :
    (runEvent e s).fault = true ↔ s.fault = true ∨ violates s e := by
  cases e with
  | wr off width v =>
    rw [violates_wr_iff, runEvent]
    rcases s.hostWr_cases off width v with
      ⟨hok, h⟩ | ⟨hok, ⟨hoff, -, h⟩ | ⟨-, hb, h⟩ | ⟨hoff, hb, h⟩ | ⟨-, hb, h⟩ | ⟨-, hoff, h⟩⟩ <;> rw [h]
    · simp [hok]
    · have hne : off ≠ offLen := by rw [hoff]; decide
      simp [hok, hne]
    · simp [hok, hb]
    · simp [hoff, hb]
    · simp [hok, hb]
    · simp [hok, hoff]
  | rd off width x =>
    rw [violates_rd_iff, runEvent]
    rcases s.hostRd_cases off width x with ⟨hok, h⟩ | ⟨hok, h | ⟨-, h⟩⟩ <;> simp [h, hok]
  | wrb a v =>
    rw [violates_wrb_iff, runEvent]
    rcases s.hostWrb_cases a v with ⟨hok, h⟩ | ⟨hok, ⟨hb, h⟩ | ⟨hb, h⟩⟩ <;> rw [h]
    · simp [hok]
    · simp [hb]
    · simp [hok, hb]
  | rdb a x =>
    rw [violates_rdb_iff, runEvent]
    rcases s.hostRdb_cases a x with ⟨hok, h⟩ | ⟨hok, ⟨-, h⟩ | ⟨-, h⟩⟩ <;> simp [h, hok]
  | wait => rcases s.hostWait_cases with ⟨-, h⟩ | ⟨-, h⟩ <;> simp [runEvent, h, violates]
  | reset => exact (or_iff_left id).symm

theorem runEvent_fault_taken (e : Event) (s : State) (rest : List Event) :
    (runEvent e (taken s rest)).fault = true ↔ s.fault = true ∨ violates s e :=
  (runEvent_fault e _).trans (or_congr Iff.rfl (violates_taken s rest e))

/-! Every kind of step -/

/-- A step is ENGINE's completion, or nothing is to come, or reset is asserted, or HOST's transaction takes effect. -/
theorem step_kinds {s t : State} (h : step s = .next t) :
    (s.engineTurn = true ∧ t = engineNext s) ∨
      (s.engineTurn = false ∧
        ((s.events = [] ∧ t = s) ∨ (∃ rest, s.events = .reset :: rest ∧ t = (taken s rest).resetInput) ∨
          ∃ e rest, e ≠ .reset ∧ s.events = e :: rest ∧ t = runEvent e (taken s rest))) := by
  rcases step_cases h with hengine | ⟨hturn, rfl⟩
  · exact .inl hengine
  · refine .inr ⟨hturn, ?_⟩
    cases he : s.events with
    | nil => exact .inl ⟨rfl, hostStep_nil he⟩
    | cons e rest =>
      rw [hostStep_taken he]
      by_cases hreset : e = .reset
      · subst hreset
        exact .inr (.inl ⟨rest, rfl, rfl⟩)
      · exact .inr (.inr ⟨e, rest, hreset, rfl, rfl⟩)

theorem eq_engineNext_of_step {s t : State} (hturn : s.engineTurn = true) (h : step s = .next t) : t = engineNext s := by
  rw [step_engine hturn, engineStep_eq] at h
  injection h with h
  exact h.symm

/-! The statements -/

/-- Settles O53: ENGINE's completion keeps FAULT, and what comes from outside sets it exactly where it is a violation. -/
theorem faultMarksViolations : Obligations.FaultMarksViolations := by
  refine ⟨fun s t hstep => ?_, State.regRead_value_fault, fun s hfault => by simp [State.safe, hfault]⟩
  rcases step_cases hstep with ⟨hturn, rfl⟩ | ⟨hturn, rfl⟩
  · simp [(engineNext_frame s).fault, hturn]
  · cases he : s.events with
    | nil => simp [hostStep_nil he]
    | cons e rest => simp [hostStep_taken he, runEvent_fault_taken, hturn]

/-- Settles O8: ENGINE's step and HOST's both answer a next state. -/
theorem noStepStops : Obligations.NoStepStops := by
  intro s
  cases hturn : s.engineTurn with
  | true => exact ⟨engineNext s, (step_engine hturn).trans (engineStep_eq s)⟩
  | false => exact ⟨hostStep s, step_host hturn⟩

/-- Settles O9: every completion ends with BUSY = 0, and an idle block to which nothing comes stays. -/
theorem completionClearsBusy : Obligations.CompletionClearsBusy := by
  refine ⟨fun s hbusy => ⟨⟨engineNext s, engineStep_eq s, engineNext_busy s⟩, fun hturn => ?_⟩, fun s hidle he => ?_⟩
  · exact step_engine (s.engineTurn_iff.2 ⟨hbusy, hturn⟩)
  · rw [step_idle hidle, hostStep_nil he]

/-- Settles O10: by induction on the number of HOST transactions drawn, each of which counts down while the command is
BUSY, but for reset, which ends it. -/
theorem busyCommandCompletes : Obligations.BusyCommandCompletes := by
  intro s hbusy
  induction hn : s.latency generalizing s with
  | zero =>
    have hstep : step s = .next (engineNext s) :=
      (step_engine (s.engineTurn_iff.2 ⟨hbusy, .inr hn⟩)).trans (engineStep_eq s)
    exact ⟨1, engineNext s, by omega, run_succ Sys2Proof.core 0 hstep, engineNext_busy s⟩
  | succ n ih =>
    obtain ⟨t, hstep⟩ := noStepStops s
    have hone : t.busy = false → ∃ k u, k ≤ n + 1 + 1 ∧ Host.Core.run Sys2Proof.core k s = .next u ∧ u.busy = false :=
      fun hidle => ⟨1, t, by omega, run_succ Sys2Proof.core 0 hstep, hidle⟩
    rcases step_kinds hstep with ⟨-, rfl⟩ | ⟨hturn, ⟨he, -⟩ | ⟨rest, -, rfl⟩ | ⟨e, rest, hreset, -, rfl⟩⟩
    · exact hone (engineNext_busy s)
    · simp [State.engineTurn, hbusy, he] at hturn
    · exact hone rfl
    · obtain ⟨hb, hlat⟩ := runEvent_busy hreset (s := taken s rest) hbusy
      obtain ⟨k, u, hk, hrun, hidle⟩ := ih _ hb (by rw [hlat]; simp [taken, hn])
      exact ⟨k + 1, u, by omega, (run_succ Sys2Proof.core k hstep).trans hrun, hidle⟩

/-- Settles O32: the frame of every completion. -/
theorem everyCommandFrame : Obligations.EveryCommandFrame := by
  intro i s
  have hframe := decodedNext_frame (.legal i) s
  exact ⟨decodedNext (.legal i) s, by rw [exec_eq_completion, completion_eq_decodedNext], hframe.len, hframe.lost,
    hframe.cmdl, hframe.fault, hframe.build, hframe.events, hframe.vars, rfl, rfl⟩

/-- Settles O35: a CMD write while BUSY = 0 is the accept and nothing else. -/
theorem acceptLatchesCommand : Obligations.AcceptLatchesCommand :=
  fun _ _ _ hidle he => ⟨_, step_cmd_idle hidle he⟩

/-- Settles O36: LOST follows the lifecycle: set by a CMD write while BUSY = 1, cleared by accept and reset, and kept by
every other step. -/
theorem cmdWriteWhileBusyIsLost : Obligations.CmdWriteWhileBusyIsLost := by
  refine ⟨fun s v rest hbusy h => ?_, fun s t rest h hstep => ?_, fun s t v rest hidle he hstep => ?_,
    fun s t hstep => ?_⟩
  · rw [step_wr h (by decide)]
    exact congrArg _ (State.regWrite_cmd_busy (s := taken s rest) hbusy _)
  · rw [step_hostNext h] at hstep
    cases hstep
    rfl
  · rw [step_cmd_idle hidle he] at hstep
    cases hstep
    rfl
  · rcases step_kinds hstep with ⟨-, rfl⟩ | ⟨hturn, ⟨-, rfl⟩ | ⟨rest, he, -⟩ | ⟨e, rest, hreset, he, rfl⟩⟩
    · exact .inl (engineNext_frame s).lost
    · exact .inl rfl
    · exact .inr ⟨hturn, _, rest, he, .inl rfl⟩
    · rcases runEvent_lifecycle hreset (taken s rest) with ⟨-, hlost, -⟩ | ⟨v, hcmd, -⟩
      · exact .inl hlost
      · exact .inr ⟨hturn, e, rest, he, .inr ⟨v, hcmd⟩⟩

/-- Settles O37: the equation of a LEN write, the read of the stored value, the frame of completion, and the free results of
a marked command. -/
theorem lenIsClamped : Obligations.LenIsClamped := by
  refine ⟨fun s v rest hbuild h => ?_, fun s x rest h => ?_, fun s t hturn hstep => ?_, fun s => resultsFree_of_tainted⟩
  · have hcap : s.build.bufCap ≤ 0xFFFFFFFF := by
      simp only [Build.wf, Bool.and_eq_true, decide_eq_true_eq] at hbuild
      exact hbuild.2
    refine ⟨_, (step_wr h (by decide)).trans (congrArg _ ((taken s rest).regWrite_len _)), ?_, rfl⟩
    exact State.clampLen_toNat (s := taken s rest) _ hcap
  · exact ⟨_, step_rd h (by decide) (State.regRead_len _), readInto_taken_setVar .., rfl⟩
  · rw [eq_engineNext_of_step hturn hstep]
    exact (engineNext_frame s).len

/-- Settles O38: the STATUS word that HOST reads, field by field. -/
theorem statusLayout : Obligations.StatusLayout := by
  refine ⟨fun s x rest h => ?_, fun s v rest h => ?_, rfl, rfl, rfl, rfl, rfl, rfl⟩
  · obtain ⟨e, o, hvalue, hidle⟩ := (taken s rest).regRead_status_value
    have hread : (taken s rest).regRead offStatus =
        (statusWord s.busy s.lost e o, { taken s rest with draws := if s.busy then s.draws + 1 else s.draws }) :=
      Prod.ext hvalue (taken s rest).regRead_status_state
    obtain ⟨hx, hothers⟩ := readInto_setVar (s := s)
      (u := { taken s rest with draws := if s.busy then s.draws + 1 else s.draws }) rfl x (statusWord s.busy s.lost e o)
    obtain ⟨hlow, hhigh⟩ := statusWord_reserved s.busy s.lost e o
    refine ⟨_, step_rd h (by decide) hread, rfl, hothers, ?_⟩
    rw [hx, statusWord_busy, statusWord_lost, statusWord_err, statusWord_order]
    exact ⟨rfl, rfl, hlow, hhigh, hidle⟩
  · rw [step_wr h (by decide), State.regWrite_ignored (by decide) (by decide)]

/-- Settles O39: the read of each register while BUSY = 1. -/
theorem readsWhileBusy : Obligations.ReadsWhileBusy := by
  intro s x rest hbusy
  have hb : (taken s rest).busy = true := hbusy
  refine ⟨fun h => ?_, fun h => ?_, fun off hoff h => ?_, fun h => ?_⟩
  · exact ⟨_, _, step_rd h (by decide) (State.regRead_status_busy hb), readInto_setVar rfl .., rfl⟩
  · exact ⟨_, step_rd h (by decide) (State.regRead_len _), readInto_taken_setVar .., rfl⟩
  · rcases hoff with rfl | rfl
    · exact ⟨_, step_rd h (by decide) ((State.regRead_csum1 _).trans (State.readResult_busy hb _)),
        readInto_setVar rfl .., rfl⟩
    · exact ⟨_, step_rd h (by decide) ((State.regRead_csum2 _).trans (State.readResult_busy hb _)),
        readInto_setVar rfl .., rfl⟩
  · exact ⟨_, step_rd h (by decide) (State.regRead_cmd _), readInto_taken_setVar .., rfl⟩

/-- Settles O40: while BUSY = 0 a read leaves the block as it is; the value is that of the slot. -/
theorem readsWhileIdle : Obligations.ReadsWhileIdle := by
  intro s off x rest hidle haligned hlt he
  have hb : (taken s rest).busy = false := hidle
  have hread : (taken s rest).regRead off = (((taken s rest).regRead off).1, taken s rest) :=
    Prod.ext rfl (State.regRead_idle off hb)
  obtain ⟨hvalue, hothers⟩ := readInto_taken_setVar s rest x ((taken s rest).regRead off).1
  refine ⟨_, step_rd (hostNext_of_idle hidle he) (regAccessOk_of_slot haligned hlt) hread, rfl, hothers, ?_⟩
  rw [hvalue]
  refine ⟨fun h => ?_, fun h => ?_, fun h => ?_, fun h => ?_⟩
  · subst h
    rfl
  · subst h
    exact congrArg Prod.fst ((State.regRead_csum1 _).trans (State.readResult_idle hb _))
  · subst h
    exact congrArg Prod.fst ((State.regRead_csum2 _).trans (State.readResult_idle hb _))
  · exact congrArg Prod.fst (State.regRead_reserved h _)

/-- Settles O42: such a write reaches no register that it writes. -/
theorem readOnlyRegistersIgnoreWrites : Obligations.ReadOnlyRegistersIgnoreWrites := by
  intro s off v rest haligned hlt hcmd hlen h
  rw [step_wr h (regAccessOk_of_slot haligned hlt), State.regWrite_ignored hcmd hlen]

/-- Settles O41: a reserved slot is no register, for reads and for writes. -/
theorem reservedSlotsReadZero : Obligations.ReservedSlotsReadZero := by
  intro s off rest haligned hlow hhigh
  have hlt : off.toNat < 0x40 := by omega
  refine ⟨fun x h => ?_, fun v h => ?_⟩
  · exact ⟨_, step_rd h (regAccessOk_of_slot haligned hlt) (State.regRead_reserved hlow _), readInto_taken_setVar .., rfl⟩
  · refine readOnlyRegistersIgnoreWrites s off v rest haligned hlt ?_ ?_ h
    · rintro rfl
      exact absurd hlow (by decide)
    · rintro rfl
      exact absurd hlow (by decide)

/-- Settles O54: an accept sets BUSY, and a completion or reset clears it; every other step keeps it. -/
theorem busyWrittenByLifecycleOnly : Obligations.BusyWrittenByLifecycleOnly := by
  intro s t hstep
  refine ⟨fun hidle => ⟨fun hbusy => ?_, fun ⟨v, rest, he⟩ => ?_⟩, fun hbusy => ⟨fun hidle => ?_, ?_⟩⟩
  · rcases step_kinds hstep with ⟨-, rfl⟩ | ⟨-, ⟨-, rfl⟩ | ⟨rest, -, rfl⟩ | ⟨e, rest, hreset, he, rfl⟩⟩
    · simp at hbusy
    · simp [hidle] at hbusy
    · exact absurd hbusy Bool.false_ne_true
    · rcases runEvent_lifecycle hreset (taken s rest) with ⟨hkept, -, -⟩ | ⟨v, rfl, -⟩
      · rw [hkept] at hbusy
        exact absurd hbusy (by simp [taken, hidle])
      · exact ⟨v, rest, he⟩
  · rw [step_cmd_idle hidle he] at hstep
    cases hstep
    rfl
  · rcases step_kinds hstep with ⟨hturn, -⟩ | ⟨-, ⟨-, rfl⟩ | ⟨rest, he, -⟩ | ⟨e, rest, hreset, -, rfl⟩⟩
    · exact .inl hturn
    · simp [hbusy] at hidle
    · exact .inr ⟨rest, he⟩
    · obtain ⟨hb, -⟩ := runEvent_busy hreset (s := taken s rest) hbusy
      simp [hb] at hidle
  · intro hends
    cases hturn : s.engineTurn with
    | true => rw [eq_engineNext_of_step hturn hstep, engineNext_busy]
    | false =>
      obtain ⟨rest, he⟩ : ∃ rest, s.events = .reset :: rest := by simpa [hturn] using hends
      rw [step_hostNext ⟨hturn, he⟩] at hstep
      cases hstep
      rfl

/-- Settles O55: of ENGINE's completions only a successful CHECKSUM and a marked command write the pair, and of what comes
from outside only reset. -/
theorem onlyChecksumWritesPair : Obligations.OnlyChecksumWritesPair := by
  intro s t hstep
  rcases step_kinds hstep with ⟨hturn, rfl⟩ | ⟨hturn, ⟨-, rfl⟩ | ⟨rest, he, -⟩ | ⟨e, rest, hreset, -, rfl⟩⟩
  · cases htainted : s.tainted with
    | true => exact .inr (.inr (.inl ⟨hturn, rfl⟩))
    | false =>
      rw [engineNext_eq_decodedNext]
      rcases decodedNext_pair (decode s.cmdl) htainted with hkept | ⟨hchecksum, herr⟩
      · exact .inl hkept
      · exact .inr (.inl ⟨hturn, hchecksum, herr⟩)
  · exact .inl ⟨rfl, rfl⟩
  · exact .inr (.inr (.inr ⟨hturn, rest, he⟩))
  · obtain ⟨hcsum1, hcsum2, -⟩ := runEvent_keeps hreset (taken s rest)
    exact .inl ⟨hcsum1, hcsum2⟩

/-- Settles O56: of ENGINE's completions only CHECKSUM's writes the accumulators, and of what comes from outside only
reset. -/
theorem onlyChecksumWritesAccumulators : Obligations.OnlyChecksumWritesAccumulators := by
  intro s t hstep
  rcases step_kinds hstep with ⟨hturn, rfl⟩ | ⟨hturn, ⟨-, rfl⟩ | ⟨rest, he, -⟩ | ⟨e, rest, hreset, -, rfl⟩⟩
  · by_cases hd : decode s.cmdl = .legal .checksum
    · exact .inr (.inl ⟨hturn, hd⟩)
    · rw [engineNext_eq_decodedNext]
      exact .inl (decodedNext_acc hd s)
  · exact .inl ⟨rfl, rfl⟩
  · exact .inr (.inr ⟨hturn, rest, he⟩)
  · obtain ⟨-, -, -, hacc, hwidx, -⟩ := runEvent_keeps hreset (taken s rest)
    exact .inl ⟨hacc, hwidx⟩

/-- Settles O57: the completions that write ORDER, and the detector's result on what they leave. -/
theorem orderIsLatched : Obligations.OrderIsLatched := by
  refine ⟨fun s t hstep => ?_, fun s t i htainted hi hexec => ?_, rfl, rfl, rfl⟩
  · rcases step_kinds hstep with ⟨hturn, rfl⟩ | ⟨hturn, ⟨-, rfl⟩ | ⟨rest, he, -⟩ | ⟨e, rest, hreset, -, rfl⟩⟩
    · rw [engineNext_eq_decodedNext]
      rcases decodedNext_order (decode s.cmdl) s with hkept | hwrites
      · exact .inl hkept
      · exact .inr (.inl ⟨hturn, hwrites⟩)
    · exact .inl rfl
    · exact .inr (.inr ⟨hturn, rest, he⟩)
    · obtain ⟨-, -, horder, -⟩ := runEvent_keeps hreset (taken s rest)
      exact .inl horder
  · rw [exec_eq_completion, completion_eq_decodedNext] at hexec
    cases hexec
    exact decodedNext_order_eq_detect htainted hi

/-- Settles O59: of all steps only an accept and reset write CMDL. -/
theorem commandLatchedUntilAccept : Obligations.CommandLatchedUntilAccept := by
  intro s t hstep
  rcases step_kinds hstep with ⟨-, rfl⟩ | ⟨hturn, ⟨-, rfl⟩ | ⟨rest, he, -⟩ | ⟨e, rest, hreset, he, rfl⟩⟩
  · exact .inl (engineNext_frame s).cmdl
  · exact .inl rfl
  · exact .inr (.inr ⟨hturn, rest, he⟩)
  · rcases runEvent_lifecycle hreset (taken s rest) with ⟨-, -, hkept⟩ | ⟨v, rfl, ⟨-, h⟩ | ⟨hidle, h⟩⟩
    · exact .inl hkept
    · exact .inl (by rw [h]; rfl)
    · exact .inr (.inl ⟨hidle, v, rest, he, by rw [h, State.accept_cmdl, WordVal.eval_taken]⟩)

/-! Commands put before ENGINE directly -/

theorem decode_of_decodeTableWord {nbits w : Nat} {i : Instr} (h : decodeTableWord nbits w = some i) :
    decode (BitVec.ofNat 32 (w % 2 ^ nbits)) = .legal i := by
  simp only [decodeTableWord] at h
  split at h
  · cases hd : decode (BitVec.ofNat 32 (w % 2 ^ nbits)) with
    | legal j => simpa [hd, Decoded.instr?] using h
    | illegal why => simp [hd, Decoded.instr?] at h
  · exact absurd h nofun

/-- Settles O6: ENGINE's turn, and the accept that `withFetchWord` performs makes it ENGINE's turn. -/
theorem stepRunsDecodedInstruction : Obligations.StepRunsDecodedInstruction := by
  have hrun : ∀ (s : State) (i : Instr), s.busy = true → (s.events = [] ∨ s.latency = 0) → decode s.cmdl = .legal i →
      step s = exec i s := fun s i hbusy hturn hd =>
    (step_engine (s.engineTurn_iff.2 ⟨hbusy, hturn⟩)).trans (engineStep_legal hd)
  refine ⟨hrun, fun s nbits w i hi => ?_⟩
  have hd : decode (s.withFetchWord nbits w).cmdl = .legal i := decode_of_decodeTableWord hi
  exact ⟨hd, hrun _ i rfl (.inr rfl) hd⟩

theorem step_withFetchWord {nbits w : Nat} {i : Instr} (s : State) (h : decodeTableWord nbits w = some i) :
    step (s.withFetchWord nbits w) =
      .next { decodedRule (.legal i) (s.withFetchWord nbits w) with busy := false, tainted := false, latency := 0 } := by
  obtain ⟨-, hstep⟩ := stepRunsDecodedInstruction.2 s nbits w i h
  rw [hstep, exec_eq_completion, completion_eq_decodedNext, decodedNext_untainted _ rfl]

theorem State.normalizeRule_err_of_len_zero {s : State} (h : s.len = 0#32) (tgt : Target) :
    (s.normalizeRule tgt).err = .unknownOrdering := by
  simp [State.normalizeRule, State.detect_of_short (s := s) (by simp [h])]

/-- Settles O50: LEN = 0 at power-on, and what each command makes of an empty image. -/
theorem commandsRightAfterReset : Obligations.CommandsRightAfterReset := by
  have hlen : ∀ w, (State.reset.withFetchWord 32 w).len = 0#32 := fun _ => rfl
  refine ⟨rfl, rfl, rfl, ⟨_, step_withFetchWord (i := .detect) _ (by decide), ?_, rfl⟩,
    ⟨_, step_withFetchWord (i := .normalize .native) _ (by decide), ?_⟩,
    ⟨_, step_withFetchWord (i := .normalize .u16LittleEndian) _ (by decide), ?_⟩,
    ⟨_, step_withFetchWord (i := .checksum) _ (by decide), ?_⟩⟩
  · exact State.detect_of_short (by rw [hlen 0x00000001]; decide)
  · exact State.normalizeRule_err_of_len_zero (hlen 0x00000002) .native
  · exact State.normalizeRule_err_of_len_zero (hlen 0x00000102) .u16LittleEndian
  · exact congrArg State.err (State.checksumRule_short (by rw [hlen]; decide))

end Sys2Proof.Machine

/-!
HOST's accesses to the block's memory (20_memory.md): the accesses that reach nothing and set FAULT, the byte of a variable
that a byte write carries, the reads of `wait`, and what can change a byte of BUF; then the statements.
-/
namespace Sys2Proof.Machine

open Sys2Proof.Claims

/-! Accesses that reach nothing (20_memory.md R53, R55, R56) -/

theorem State.hostWr_malformed {off : Word} {width : Width} (h : regAccessOk off width = false) (v : WordVal) (s : State) :
    s.hostWr off width v = s.setFault :=
  if_neg (ne_true_of_eq_false h)

theorem State.hostRd_malformed {off : Word} {width : Width} (h : regAccessOk off width = false) (x : Nat) (s : State) :
    s.hostRd off width x = s.setFault :=
  if_neg (ne_true_of_eq_false h)

theorem State.hostWrb_outOfRange {s : State} {a : Word} (h : s.bufAddressOk a = false) (v : ByteVal) :
    s.hostWrb a v = s.setFault :=
  if_neg (ne_true_of_eq_false h)

theorem State.hostRdb_outOfRange {s : State} {a : Word} (h : s.bufAddressOk a = false) (x : Nat) :
    s.hostRdb a x = s.setFault :=
  if_neg (ne_true_of_eq_false h)

/-- A step in which HOST's transaction does no more than set FAULT. -/
theorem step_setFault {s : State} {e : Event} {rest : List Event} (h : hostNext s e rest)
    (hfault : runEvent e (taken s rest) = (taken s rest).setFault) :
    step s = .next { taken s rest with fault := true } :=
  (step_hostNext h).trans (congrArg _ hfault)

/-! The bytes of HOST's variables -/

/-- Byte k of a register value is its bits [31-8k : 24-8k], as a number (20_memory.md R58). -/
theorem byteOfWord_toNat (v : Word) (k : Nat) : (byteOfWord v k).toNat = v.toNat / 2 ^ (24 - 8 * k) % 256 := by
  rw [byteOfWord, BitVec.extractLsb'_toNat, Nat.shiftRight_eq_div_pow]

/-! What can change a byte of BUF (20_memory.md R48; 70_reset_and_hazards.md R148) -/

/-- Of the rules only NORMALIZE's writes BUF. -/
theorem decodedRule_bufRead (d : Decoded) (s : State) :
    (∀ a, (decodedRule d s).bufRead a = s.bufRead a) ∨ ∃ tgt, d = .legal (.normalize tgt) := by
  match d with
  | .legal .detect => exact .inl (State.bufRead_congr rfl rfl)
  | .legal (.normalize tgt) => exact .inr ⟨tgt, rfl⟩
  | .legal .checksum =>
    rw [decodedRule]
    rcases s.checksumRule_cases with h | h | h <;> rw [h] <;> exact .inl (State.bufRead_congr rfl rfl)
  | .illegal _ => exact .inl (State.bufRead_congr rfl rfl)

/-- The end of a command whose inputs HOST left alone keeps every byte that its rule left. -/
theorem decodedNext_bufRead {s : State} (d : Decoded) (h : s.tainted = false) (a : Nat) :
    (decodedNext d s).bufRead a = (decodedRule d s).bufRead a := by
  rw [decodedNext_untainted d h]
  exact State.bufRead_congr rfl rfl a

/-- A byte write, in whatever state, leaves every byte but the addressed one. -/
theorem State.bufRead_hostWrb_ne {a : Word} {b : Nat} (hb : b ≠ a.toNat) (v : ByteVal) (s : State) :
    (s.hostWrb a v).bufRead b = s.bufRead b := by
  have hwrite : (s.bufWrite a.toNat (v.eval s)).bufRead b = s.bufRead b := s.bufRead_bufWrite_ne hb _
  rcases s.hostWrb_cases a v with ⟨-, h⟩ | ⟨-, ⟨-, h⟩ | ⟨-, h⟩⟩ <;> rw [h]
  · exact State.bufRead_congr rfl rfl b
  · exact (State.bufRead_congr rfl rfl b).trans hwrite
  · exact hwrite

/-- Of HOST's transactions only a byte write writes BUF. -/
theorem runEvent_buf {e : Event} (hreset : e ≠ .reset) (hwrb : ∀ a v, e ≠ .wrb a v) (s : State) :
    (runEvent e s).buf = s.buf := by
  cases e with
  | wr off width v =>
    rcases s.hostWr_cases off width v with
      ⟨-, h⟩ | ⟨-, ⟨-, -, h⟩ | ⟨-, -, h⟩ | ⟨-, -, h⟩ | ⟨-, -, h⟩ | ⟨-, -, h⟩⟩ <;> simp [runEvent, h]
  | rd off width x => rcases s.hostRd_cases off width x with ⟨-, h⟩ | ⟨-, h | ⟨-, h⟩⟩ <;> simp [runEvent, h]
  | wrb a v => exact absurd rfl (hwrb a v)
  | rdb a x => rcases s.hostRdb_cases a x with ⟨-, h⟩ | ⟨-, ⟨-, h⟩ | ⟨-, h⟩⟩ <;> simp [runEvent, h]
  | wait => rcases s.hostWait_cases with ⟨-, h⟩ | ⟨-, h⟩ <;> simp [runEvent, h]
  | reset => exact absurd rfl hreset

/-- BUF over a transaction of HOST: every byte stays, or it is a byte write and every other byte stays. -/
theorem runEvent_bufRead {e : Event} (hreset : e ≠ .reset) (s : State) :
    (∀ a, (runEvent e s).bufRead a = s.bufRead a) ∨
      ∃ a v, e = .wrb a v ∧ ∀ b, b ≠ a.toNat → (runEvent e s).bufRead b = s.bufRead b := by
  by_cases hwrb : ∃ a v, e = .wrb a v
  · obtain ⟨a, v, rfl⟩ := hwrb
    exact .inr ⟨a, v, rfl, fun b hb => s.bufRead_hostWrb_ne hb v⟩
  · have hbuf := runEvent_buf hreset (fun a v he => hwrb ⟨a, v, he⟩) s
    obtain ⟨-, -, -, -, -, hbufDraw, -⟩ := runEvent_keeps hreset s
    exact .inl (State.bufRead_congr hbuf hbufDraw)

/-! The statements -/

/-- Settles O58: of ENGINE's completions only NORMALIZE's and a marked command's write BUF, and of what comes from outside
only reset and a byte write. -/
theorem bufWrittenOnlyBy : Obligations.BufWrittenOnlyBy := by
  intro s t hstep
  rcases step_kinds hstep with ⟨hturn, rfl⟩ | ⟨hturn, ⟨-, rfl⟩ | ⟨rest, he, -⟩ | ⟨e, rest, hreset, he, rfl⟩⟩
  · cases htainted : s.tainted with
    | true => exact .inr (.inr (.inl ⟨hturn, rfl⟩))
    | false =>
      rw [engineNext_eq_decodedNext]
      rcases decodedRule_bufRead (decode s.cmdl) s with hkept | hnormalize
      · exact .inl fun a => (decodedNext_bufRead _ htainted a).trans (hkept a)
      · exact .inr (.inl ⟨hturn, hnormalize⟩)
  · exact .inl fun _ => rfl
  · exact .inr (.inr (.inr ⟨hturn, _, rest, he, .inl rfl⟩))
  · have htaken : ∀ b, (taken s rest).bufRead b = s.bufRead b := State.bufRead_congr rfl rfl
    rcases runEvent_bufRead hreset (taken s rest) with hkept | ⟨a, v, hwrb, hothers⟩
    · exact .inl fun b => (hkept b).trans (htaken b)
    · exact .inr (.inr (.inr ⟨hturn, e, rest, he, .inr ⟨a, v, hwrb, fun b hb => (hothers b hb).trans (htaken b)⟩⟩))

/-- Settles O43: such an access does not reach a register, BUSY or not. -/
theorem malformedRegisterAccessFaults : Obligations.MalformedRegisterAccessFaults := by
  intro s off width rest hmalformed
  have hok : regAccessOk off width = false := (regAccessOk_eq_false_iff off width).2 hmalformed
  exact ⟨fun v h => step_setFault h (State.hostWr_malformed hok v _),
    fun x h => step_setFault h (State.hostRd_malformed hok x _)⟩

/-- Settles O44: such an access does not reach a byte of BUF, BUSY or not. -/
theorem bufAccessOutOfRangeFaults : Obligations.BufAccessOutOfRangeFaults := by
  intro s a rest hrange
  have hok : (taken s rest).bufAddressOk a = false := ((taken s rest).bufAddressOk_eq_false_iff a).2 hrange
  exact ⟨fun v h => step_setFault h (State.hostWrb_outOfRange hok v),
    fun x h => step_setFault h (State.hostRdb_outOfRange hok x)⟩

/-- Settles O46: the write of an existing byte of an idle block, with the byte that the variable gives. -/
theorem hostStoresVariableByte : Obligations.HostStoresVariableByte := by
  intro s a x k rest hidle ha he
  refine ⟨_, step_wrb_idle hidle ha he, ?_, fun b hb => bufRead_taken_bufWrite_ne s rest hb _, rfl⟩
  rw [bufRead_taken_bufWrite_same]
  exact byteOfWord_toNat (s.varValue x) k

/-- Settles O48: one read of `wait`, while BUSY = 1 and while BUSY = 0. -/
theorem waitPollsBusy : Obligations.WaitPollsBusy := by
  intro s rest h
  rw [step_hostNext h]
  rcases (taken s rest).hostWait_cases with ⟨hbusy, hwait⟩ | ⟨hidle, hwait⟩
  · exact ⟨fun _ => congrArg _ hwait, fun hidle => absurd (hbusy.symm.trans hidle) (by decide)⟩
  · exact ⟨fun hbusy => absurd (hidle.symm.trans hbusy) (by decide), fun _ => congrArg _ hwait⟩

end Sys2Proof.Machine

/-!
The encoding of commands (30_encoding.md): the fields of format CMDW as numbers, the decoder by its fields, and the encoder
as the decoder's inverse; then the statements.
-/
namespace Sys2Proof

/-! The fields of a word, as numbers (30_encoding.md R68) -/

@[simp] theorem fieldOp_toNat (w : Word) : (fieldOp w).toNat = w.toNat % 16 :=
  BitVec.extractLsb'_toNat 0 4 w

@[simp] theorem fieldRes0_toNat (w : Word) : (fieldRes0 w).toNat = w.toNat / 16 % 16 := by
  rw [fieldRes0, BitVec.extractLsb'_toNat, Nat.shiftRight_eq_div_pow]

@[simp] theorem fieldTgt_toNat (w : Word) : (fieldTgt w).toNat = w.toNat / 256 % 2 :=
  Nat.toNat_testBit w.toNat 8

theorem fieldTgt_eq_iff (w : Word) (tgt : Bool) : fieldTgt w = tgt ↔ w.toNat / 256 % 2 = tgt.toNat := by
  rw [← fieldTgt_toNat]
  cases fieldTgt w <;> cases tgt <;> decide

/-- No bit lies above RES1, so its number is all that stands above bit 8. -/
@[simp] theorem fieldRes1_toNat (w : Word) : (fieldRes1 w).toNat = w.toNat / 512 := by
  rw [fieldRes1, BitVec.extractLsb'_toNat, Nat.shiftRight_eq_div_pow]
  have hw : w.toNat < 2 ^ 32 := w.isLt
  omega

/-- The number of a word laid out as format CMDW. -/
@[simp] theorem assembleFields_toNat (op : BitVec 4) (tgt : Bool) :
    (assembleFields op tgt).toNat = 256 * tgt.toNat + op.toNat := by
  have hop : op.toNat < 2 ^ 8 := Nat.lt_trans op.isLt (by decide)
  simp only [assembleFields, BitVec.toNat_append, BitVec.toNat_ofNat, BitVec.toNat_ofBool, Nat.zero_mod, Nat.zero_shiftLeft,
    Nat.zero_or]
  rw [← Nat.shiftLeft_add_eq_or_of_lt hop, Nat.shiftLeft_eq, Nat.mul_comm]

theorem wordReservedClear_iff_fields (w : Word) :
    wordReservedClear w = true ↔ fieldRes0 w = 0#4 ∧ fieldRes1 w = 0#23 := by
  simp [wordReservedClear, fieldRes0, fieldRes1]

theorem wordReservedClear_iff (w : Word) :
    wordReservedClear w = true ↔ w.toNat / 16 % 16 = 0 ∧ w.toNat / 512 = 0 := by
  simp [wordReservedClear_iff_fields, ← BitVec.toNat_inj]

/-- A word whose reserved bits are 0 is laid out from its OP and TGT. -/
theorem assembleFields_fields {w : Word} (h : wordReservedClear w = true) :
    assembleFields (fieldOp w) (fieldTgt w) = w := by
  obtain ⟨hres0, hres1⟩ := (wordReservedClear_iff w).1 h
  apply BitVec.eq_of_toNat_eq
  rw [assembleFields_toNat, fieldTgt_toNat, fieldOp_toNat]
  omega

/-! The decoder by its fields (30_encoding.md R75) -/

/-- A reserved bit that is 1 makes a word illegal, whatever its OP and TGT (30_encoding.md R73). -/
theorem decode_of_reserved {w : Word} (h : wordReservedClear w ≠ true) : decode w = .illegal .reservedBits :=
  if_pos (Decidable.not_and_iff_not_or_not.1 (mt (wordReservedClear_iff_fields w).2 h))

theorem decode_of_reservedClear {w : Word} (h : wordReservedClear w = true) :
    decode w = decodeOp (fieldOp w) (fieldTgt w) := by
  obtain ⟨hres0, hres1⟩ := (wordReservedClear_iff_fields w).1 h
  exact if_neg (not_or_intro (not_not_intro hres0) (not_not_intro hres1))

/-- The decoder on the numbers of the fields. -/
theorem decode_of_fields {w : Word} (op : BitVec 4) (tgt : Bool) (hres : w.toNat / 16 % 16 = 0 ∧ w.toNat / 512 = 0)
    (hop : w.toNat % 16 = op.toNat) (htgt : w.toNat / 256 % 2 = tgt.toNat) : decode w = decodeOp op tgt := by
  have hop' : fieldOp w = op := BitVec.eq_of_toNat_eq ((fieldOp_toNat w).trans hop)
  rw [decode_of_reservedClear ((wordReservedClear_iff w).2 hres), hop', (fieldTgt_eq_iff w tgt).2 htgt]

theorem decodeOp_unknown {op : BitVec 4} (h1 : op ≠ 0x1#4) (h2 : op ≠ 0x2#4) (h3 : op ≠ 0x3#4) (tgt : Bool) :
    decodeOp op tgt = .illegal .operation := by
  simp [decodeOp, h1, h2, h3]

/-- The commands and where each is found: DETECT and CHECKSUM take no TGT (30_encoding.md R69, R70, R72). -/
theorem decodeOp_eq_legal_iff (op : BitVec 4) (tgt : Bool) (i : Instr) :
    decodeOp op tgt = .legal i ↔
      (op = 0x1#4 ∧ tgt = false ∧ i = .detect) ∨ (op = 0x2#4 ∧ i = .normalize (targetOfTgt tgt)) ∨
        (op = 0x3#4 ∧ tgt = false ∧ i = .checksum) := by
  by_cases hop : op = 0x1#4 ∨ op = 0x2#4 ∨ op = 0x3#4
  · rcases hop with rfl | rfl | rfl
    · cases tgt <;> simp [decodeOp, eq_comm]
    · simp [decodeOp, eq_comm]
    · cases tgt <;> simp [decodeOp, eq_comm]
  · obtain ⟨h1, h2, h3⟩ : op ≠ 0x1#4 ∧ op ≠ 0x2#4 ∧ op ≠ 0x3#4 := by simpa only [not_or] using hop
    simp [decodeOp_unknown h1 h2 h3 tgt, h1, h2, h3]

/-- OP is 1, 2 or 3, and TGT = 1 goes with NORMALIZE alone (30_encoding.md R69, R72). -/
theorem exists_decodeOp_eq_legal_iff (op : BitVec 4) (tgt : Bool) :
    (∃ i, decodeOp op tgt = .legal i) ↔ (op = 0x1#4 ∨ op = 0x2#4 ∨ op = 0x3#4) ∧ (tgt = false ∨ op = 0x2#4) := by
  constructor
  · rintro ⟨i, h⟩
    rcases (decodeOp_eq_legal_iff op tgt i).1 h with ⟨rfl, rfl, -⟩ | ⟨rfl, -⟩ | ⟨rfl, rfl, -⟩
    · exact ⟨.inl rfl, .inl rfl⟩
    · exact ⟨.inr (.inl rfl), .inr rfl⟩
    · exact ⟨.inr (.inr rfl), .inl rfl⟩
  · rintro ⟨rfl | rfl | rfl, rfl | hop⟩
    · exact ⟨.detect, rfl⟩
    · exact absurd hop (by decide)
    · exact ⟨.normalize .native, rfl⟩
    · exact ⟨.normalize (targetOfTgt tgt), rfl⟩
    · exact ⟨.checksum, rfl⟩
    · exact absurd hop (by decide)

/-- The checks of OP and TGT together ask what the decoder asks of these fields. -/
theorem wordWellFormed_iff (w : Word) :
    wordWellFormed w = true ↔ wordReservedClear w = true ∧ ∃ i, decodeOp (fieldOp w) (fieldTgt w) = .legal i := by
  rw [exists_decodeOp_eq_legal_iff]
  simp [wordWellFormed, wordOperationKnown, wordTargetAllowed, fieldOp, fieldTgt, and_assoc, or_assoc]

/-! The encoder is the decoder's inverse (30_encoding.md R74) -/

@[simp] theorem encode_detect : encode .detect = 0x00000001#32 := rfl
@[simp] theorem encode_normalize_native : encode (.normalize .native) = 0x00000002#32 := rfl
@[simp] theorem encode_normalize_u16le : encode (.normalize .u16LittleEndian) = 0x00000102#32 := rfl
@[simp] theorem encode_checksum : encode .checksum = 0x00000003#32 := rfl

theorem decode_encode (i : Instr) : decode (encode i) = .legal i := by
  match i with
  | .detect => exact decode_detect_word
  | .normalize .native => exact decode_normalize_native_word
  | .normalize .u16LittleEndian => exact decode_normalize_u16le_word
  | .checksum => exact decode_checksum_word

/-- A command that OP and TGT give is encoded with this OP and this TGT. -/
theorem encode_of_decodeOp {op : BitVec 4} {tgt : Bool} {i : Instr} (h : decodeOp op tgt = .legal i) :
    encode i = assembleFields op tgt := by
  rcases (decodeOp_eq_legal_iff op tgt i).1 h with ⟨rfl, rfl, rfl⟩ | ⟨rfl, rfl⟩ | ⟨rfl, rfl, rfl⟩
  · rfl
  · cases tgt <;> rfl
  · rfl

theorem reservedClear_of_decode {w : Word} {i : Instr} (h : decode w = .legal i) : wordReservedClear w = true := by
  by_cases hres : wordReservedClear w = true
  · exact hres
  · exact absurd ((decode_of_reserved hres).symm.trans h) nofun

theorem encode_of_decode {w : Word} {i : Instr} (h : decode w = .legal i) : encode i = w := by
  have hres := reservedClear_of_decode h
  rw [decode_of_reservedClear hres] at h
  rw [encode_of_decodeOp h, assembleFields_fields hres]

/-- Each command has exactly one word. -/
theorem decode_eq_legal_iff (w : Word) (i : Instr) : decode w = .legal i ↔ w = encode i :=
  ⟨fun h => (encode_of_decode h).symm, fun h => h ▸ decode_encode i⟩

/-! The statements -/

/-- Settles O3: the words of the commands decode to them, and a word that decodes is laid out from its OP and TGT. -/
theorem decodeEncodeAgree : Obligations.DecodeEncodeAgree :=
  ⟨fun i _ => decode_encode i, fun _ _ => encode_of_decode⟩

/-- Settles O2: each command's one word, written out. -/
theorem legalWordsAreFour : Obligations.LegalWordsAreFour := by
  intro w i
  rw [decode_eq_legal_iff]
  cases i with
  | detect => simp
  | normalize tgt => cases tgt <;> simp
  | checksum => simp

/-- Settles O4: the decoder on the numbers of the fields, one clause after the other. -/
theorem decoderFollowsFields : Obligations.DecoderFollowsFields := by
  intro w res tgt op
  refine ⟨fun hres => ⟨.reservedBits, decode_of_reserved (mt (wordReservedClear_iff w).1 hres)⟩,
    decode_of_fields 0x1#4 false, decode_of_fields 0x2#4 false, decode_of_fields 0x2#4 true, decode_of_fields 0x3#4 false,
    fun hres hop htgt => ⟨.target, ?_⟩, fun hres h1 h2 h3 => ⟨.operation, ?_⟩⟩
  · rcases hop with hop | hop
    · exact decode_of_fields 0x1#4 true hres hop htgt
    · exact decode_of_fields 0x3#4 true hres hop htgt
  · have hne {k : BitVec 4} (hk : op ≠ k.toNat) : fieldOp w ≠ k := fun h => hk (h ▸ (fieldOp_toNat w).symm)
    rw [decode_of_reservedClear ((wordReservedClear_iff w).2 hres)]
    exact decodeOp_unknown (hne h1) (hne h2) (hne h3) _

/-- Settles O5: the check of the reserved bits is the decoder's first question, those of OP and TGT are its second. -/
theorem checksMatchDecoder : Obligations.ChecksMatchDecoder := by
  intro w
  rw [wordWellFormed_iff]
  constructor
  · rintro ⟨hres, i, hi⟩
    exact ⟨i, (decode_of_reservedClear hres).trans hi⟩
  · rintro ⟨i, hi⟩
    have hres := reservedClear_of_decode hi
    exact ⟨hres, i, (decode_of_reservedClear hres).symm.trans hi⟩

/-- Settles O1: two words of the table and four whose fields the decoder reads. -/
theorem sampleWordsDecode : Obligations.SampleWordsDecode :=
  ⟨decode_detect_word, congrArg Decoded.instr? decode_normalize_u16le_word, congrArg Decoded.instr? decode_checksum_word,
    decode_of_fields 0x3#4 true (by decide) rfl rfl, decode_of_reserved (by decide),
    decode_of_fields 0x0#4 false (by decide) rfl rfl⟩

end Sys2Proof

/-! The illegal command word at completion (30_encoding.md R76) -/
namespace Sys2Proof.Machine

/-- Settles O7: ENGINE's turn on an illegal word, whose rule writes ERR alone. -/
theorem illegalWordCompletes : Obligations.IllegalWordCompletes := by
  intro s why hbusy hturn htainted hd
  have hstep : step s = .next (decodedNext (.illegal why) s) := by
    rw [step_engine (s.engineTurn_iff.2 ⟨hbusy, hturn⟩), engineStep_eq, engineNext_eq_decodedNext, hd]
  rw [hstep, decodedNext_untainted _ htainted, ← htainted]
  exact ⟨rfl, rfl⟩

end Sys2Proof.Machine

/-!
The detector and DETECT (40_detector.md): a magic as the big-endian word of BUF bytes 0..3, and the completion of a command
that is not marked; then the statements.
-/
namespace Sys2Proof.Machine

/-! The magic as a word -/

/-- The bytes of a big-endian word are determined by it (00_scope.md R15). -/
theorem bytesBE_inj {b0 b1 b2 b3 c0 c1 c2 c3 : Byte} :
    bytesBE b0 b1 b2 b3 = bytesBE c0 c1 c2 c3 ↔ b0 = c0 ∧ b1 = c1 ∧ b2 = c2 ∧ b3 = c3 := by
  simp only [← BitVec.toNat_inj, bytesBE_toNat]
  omega

theorem State.magicIs_iff_bufReadBE32 (s : State) (b0 b1 b2 b3 : Byte) :
    s.magicIs b0 b1 b2 b3 = true ↔ s.bufReadBE32 0 = bytesBE b0 b1 b2 b3 :=
  (s.magicIs_iff b0 b1 b2 b3).trans bytesBE_inj.symm

/-- Bytes `80 37 12 40` are the first word of a Native image (40_detector.md R85). -/
theorem State.detect_eq_native_iff_word (s : State) :
    s.detect = .native ↔ 4 ≤ s.len.toNat ∧ s.bufReadBE32 0 = 0x80371240#32 :=
  s.detect_eq_native_iff.trans (and_congr_right' (s.magicIs_iff_bufReadBE32 0x80#8 0x37#8 0x12#8 0x40#8))

/-- Bytes `37 80 40 12` are the first word of a U16LittleEndian image (40_detector.md R86). -/
theorem State.detect_eq_u16LittleEndian_iff_word (s : State) :
    s.detect = .u16LittleEndian ↔ 4 ≤ s.len.toNat ∧ s.bufReadBE32 0 = 0x37804012#32 :=
  s.detect_eq_u16LittleEndian_iff.trans (and_congr_right' (s.magicIs_iff_bufReadBE32 0x37#8 0x80#8 0x40#8 0x12#8))

/-! The completion of a command that is not marked -/

/-- The command's rule, then BUSY := 0 (10_state.md R31). -/
theorem exec_untainted {s : State} (i : Instr) (h : s.tainted = false) :
    exec i s = .next { decodedRule (.legal i) s with busy := false, latency := 0 } := by
  rw [exec_eq_completion, completion_eq_decodedNext, decodedNext_untainted _ h]
  simp [h]

/-! The statements -/

/-- Settles O11: either result says that LEN is at least 4 and which word stands first, so the third is left where no magic
stands. -/
theorem detectorClassifies : Obligations.DetectorClassifies := by
  intro s
  refine ⟨State.detect_of_short, fun hlen hword => s.detect_eq_native_iff_word.2 ⟨hlen, hword⟩,
    fun hlen hword => s.detect_eq_u16LittleEndian_iff_word.2 ⟨hlen, hword⟩, fun hnative hswapped => ?_⟩
  cases hd : s.detect with
  | undetermined => rfl
  | native => exact absurd (s.detect_eq_native_iff_word.1 hd).2 hnative
  | u16LittleEndian => exact absurd (s.detect_eq_u16LittleEndian_iff_word.1 hd).2 hswapped

/-- Settles O12: LEN is compared with 4, and each magic with bytes 0..3. -/
theorem detectorReadsMagicOnly : Obligations.DetectorReadsMagicOnly := by
  intro s t hlen hbytes
  simp only [State.detect, hlen, State.magicIs_congr hbytes]

/-- Settles O13: the word of DETECT, and its rule, which writes ORDER and ERR alone. -/
theorem detectCompletes : Obligations.DetectCompletes :=
  ⟨encode_detect, fun _ htainted => exec_untainted .detect htainted⟩

end Sys2Proof.Machine

/-!
NORMALIZE (41_normalizer.md): its rule on each of its four paths, the state each path leaves, and every completion said
once; then the statements.
-/
namespace Sys2Proof.Machine

/-! The two orderings a target can name -/

theorem targetTag_ne_undetermined (tgt : Target) : targetTag tgt ≠ .undetermined := by
  cases tgt <;> decide

theorem targetTag_injective : Function.Injective targetTag := by
  intro a b h
  cases a <;> cases b
  · rfl
  · exact absurd h (by decide)
  · exact absurd h (by decide)
  · rfl

/-! The rule on each path (41_normalizer.md R89, R92) -/

theorem State.normalizeRule_of_undetermined {s : State} (h : s.detect = .undetermined) (tgt : Target) :
    s.normalizeRule tgt = (s.setOrder .undetermined).raiseErr .unknownOrdering :=
  if_pos h

theorem State.normalizeRule_of_odd {s : State} (hknown : s.detect ≠ .undetermined) (hodd : s.len.toNat % 2 = 1)
    (tgt : Target) : s.normalizeRule tgt = (s.setOrder s.detect).raiseErr .oddLength := by
  have hbit : s.len.getLsbD 0 = true := (getLsbD_zero_iff_odd _).trans (decide_eq_true hodd)
  exact (if_neg hknown).trans (if_pos hbit)

/-- The state that a NORMALIZE which swaps leaves, BUF as the pair swap leaves it (41_normalizer.md R94);
`exec_normalize_of_other` ties it to the model. -/
def State.swappedTo (tgt : Target) (s : State) : State :=
  { s with
    buf := (swapPairs (s.len.toNat / 2) s).buf, order := targetTag tgt, err := .noError, busy := false, latency := 0 }

section EvenLength

variable {s : State} {tgt : Target} (heven : s.len.toNat % 2 = 0)
include heven

/-- Past the two checks what is left of the rule is its no-op test (41_normalizer.md R93, R94). -/
theorem State.normalizeRule_of_even (hknown : s.detect ≠ .undetermined) :
    s.normalizeRule tgt =
      if s.detect = targetTag tgt then (s.setOrder s.detect).complete
      else ((swapPairs (s.len.toNat / 2) s).setOrder (targetTag tgt)).complete := by
  have hbit : s.len.getLsbD 0 ≠ true := by
    rw [getLsbD_zero_iff_odd]
    simp [heven]
  exact (if_neg hknown).trans (if_neg hbit)

theorem State.normalizeRule_of_current (hcurrent : s.detect = targetTag tgt) :
    s.normalizeRule tgt = (s.setOrder (targetTag tgt)).complete := by
  have hknown : s.detect ≠ .undetermined := hcurrent ▸ targetTag_ne_undetermined tgt
  rw [State.normalizeRule_of_even heven hknown, if_pos hcurrent, hcurrent]

theorem State.normalizeRule_of_other (hknown : s.detect ≠ .undetermined) (hother : s.detect ≠ targetTag tgt) :
    s.normalizeRule tgt = ((swapPairs (s.len.toNat / 2) s).setOrder (targetTag tgt)).complete :=
  (State.normalizeRule_of_even heven hknown).trans (if_neg hother)

/-- The pairs swapped are those of [0, LEN): each byte below LEN comes from its partner, and no other byte moves
(41_normalizer.md R94, R95). -/
theorem State.bufRead_swappedTo (a : Nat) :
    (s.swappedTo tgt).bufRead a = if a < s.len.toNat then s.bufRead (a ^^^ 1) else s.bufRead a := by
  have hbuf : (s.swappedTo tgt).buf = (swapPairs (s.len.toNat / 2) s).buf := rfl
  have hdraw : (s.swappedTo tgt).bufDraw = (swapPairs (s.len.toNat / 2) s).bufDraw := (swapPairs_bufDraw _ s).symm
  have hpairs : 2 * (s.len.toNat / 2) = s.len.toNat := by omega
  rw [State.bufRead_congr hbuf hdraw, bufRead_swapPairs, hpairs]

end EvenLength

/-- The partner of an address below an even length lies below it too (41_normalizer.md R95). -/
theorem xor_one_lt {a n : Nat} (heven : n % 2 = 0) (h : a < n) : a ^^^ 1 < n := by
  rw [xor_one]
  split <;> omega

/-! The completion -/

theorem exec_normalize {s : State} (htainted : s.tainted = false) (tgt : Target) :
    exec (.normalize tgt) s = .next { s.normalizeRule tgt with busy := false, latency := 0 } :=
  exec_untainted (.normalize tgt) htainted

/-- Settles O14: the first check fails. -/
theorem normalizeRefusesUnknownOrdering : Obligations.NormalizeRefusesUnknownOrdering := by
  intro s tgt htainted hund
  rw [exec_normalize htainted, State.normalizeRule_of_undetermined hund]
  rfl

/-- Settles O15: the second check fails, before the target is looked at. -/
theorem normalizeRefusesOddLength : Obligations.NormalizeRefusesOddLength := by
  intro s tgt htainted hknown hodd
  rw [exec_normalize htainted, State.normalizeRule_of_odd hknown hodd]
  rfl

/-- Settles O16: both checks pass, and the no-op test holds. -/
theorem normalizeToCurrentIsNoOp : Obligations.NormalizeToCurrentIsNoOp := by
  intro s tgt htainted heven hcurrent
  rw [exec_normalize htainted, State.normalizeRule_of_current heven hcurrent]
  rfl

theorem exec_normalize_of_other {s : State} {tgt : Target} (htainted : s.tainted = false) (heven : s.len.toNat % 2 = 0)
    (hknown : s.detect ≠ .undetermined) (hother : s.detect ≠ targetTag tgt) :
    exec (.normalize tgt) s = .next (s.swappedTo tgt) := by
  rw [exec_normalize htainted, State.normalizeRule_of_other heven hknown hother, swapPairs_eq]
  rfl

/-- Everything a NORMALIZE that is not marked can do (41_normalizer.md R89, R92). -/
theorem exec_normalize_cases {s t : State} {tgt : Target} (htainted : s.tainted = false)
    (h : exec (.normalize tgt) s = .next t) :
    (s.detect = .undetermined ∧
        t = { s with order := .undetermined, err := .unknownOrdering, busy := false, latency := 0 }) ∨
      (s.detect ≠ .undetermined ∧ s.len.toNat % 2 = 1 ∧
        t = { s with order := s.detect, err := .oddLength, busy := false, latency := 0 }) ∨
      (s.len.toNat % 2 = 0 ∧ s.detect = targetTag tgt ∧
        t = { s with order := targetTag tgt, err := .noError, busy := false, latency := 0 }) ∨
      (s.len.toNat % 2 = 0 ∧ s.detect ≠ .undetermined ∧ s.detect ≠ targetTag tgt ∧ t = s.swappedTo tgt) := by
  by_cases hund : s.detect = .undetermined
  · rw [normalizeRefusesUnknownOrdering s tgt htainted hund] at h
    cases h
    exact .inl ⟨hund, rfl⟩
  · rcases Nat.mod_two_eq_zero_or_one s.len.toNat with heven | hodd
    · by_cases hcurrent : s.detect = targetTag tgt
      · rw [normalizeToCurrentIsNoOp s tgt htainted heven hcurrent] at h
        cases h
        exact .inr (.inr (.inl ⟨heven, hcurrent, rfl⟩))
      · rw [exec_normalize_of_other htainted heven hund hcurrent] at h
        cases h
        exact .inr (.inr (.inr ⟨heven, hund, hcurrent, rfl⟩))
    · rw [normalizeRefusesOddLength s tgt htainted hund hodd] at h
      cases h
      exact .inr (.inl ⟨hund, hodd, rfl⟩)

/-! The statements about every completion -/

/-- Settles O17: the pair swap over [0, LEN), and nothing else. -/
theorem normalizeSwapsEveryPair : Obligations.NormalizeSwapsEveryPair := by
  intro s tgt htainted heven hknown hother
  refine ⟨_, exec_normalize_of_other htainted heven hknown hother, fun a ha => ?_, fun a ha => ?_, rfl⟩
  · exact (State.bufRead_swappedTo heven a).trans (if_pos ha)
  · exact (State.bufRead_swappedTo heven a).trans (if_neg (Nat.not_lt.2 ha))

/-- Settles O20: ORDER is the detector's result on every path, and each path ends with a code of its own or with success
and the target. -/
theorem normalizeOrderIsDetected : Obligations.NormalizeOrderIsDetected := by
  intro s t tgt htainted hexec
  obtain ⟨-, hlatched, -⟩ := orderIsLatched
  have horder : t.order = t.detect := hlatched s t (.normalize tgt) htainted nofun hexec
  rcases exec_normalize_cases htainted hexec with ⟨-, rfl⟩ | ⟨-, -, rfl⟩ | ⟨-, -, rfl⟩ | ⟨-, -, -, rfl⟩
  · exact ⟨horder, rfl, fun _ => rfl, nofun, nofun⟩
  · exact ⟨horder, rfl, nofun, fun _ => rfl, nofun⟩
  · exact ⟨horder, rfl, nofun, nofun, fun _ => rfl⟩
  · exact ⟨horder, rfl, nofun, nofun, fun _ => rfl⟩

/-- Settles O18: a swap ends with ORDER the target, and ORDER is the detector's result on the bytes swapped. -/
theorem swapReachesTarget : Obligations.SwapReachesTarget := by
  intro s t tgt htainted heven hknown hother hexec
  obtain ⟨horder, -⟩ := normalizeOrderIsDetected s t tgt htainted hexec
  rw [exec_normalize_of_other htainted heven hknown hother] at hexec
  cases hexec
  exact horder.symm

/-- Settles O19: two swaps of the same pairs, as the first reaches the other ordering and an address is the partner of its
partner. -/
theorem normalizeRoundTrip : Obligations.NormalizeRoundTrip := by
  intro s there back htainted heven hback hne
  have hknown : s.detect ≠ .undetermined := hback ▸ targetTag_ne_undetermined back
  have hother : s.detect ≠ targetTag there := hback ▸ targetTag_injective.ne hne.symm
  obtain ⟨t, hthere, hswapped, habove, ht⟩ := normalizeSwapsEveryPair s there htainted heven hknown hother
  have hdetect : t.detect = targetTag there := swapReachesTarget s t there htainted heven hknown hother hthere
  have htlen : t.len = s.len := by rw [ht]
  obtain ⟨u, hexec, hswapped', habove', hu⟩ := normalizeSwapsEveryPair t back ((congrArg State.tainted ht).trans htainted)
    (htlen ▸ heven) (hdetect ▸ targetTag_ne_undetermined there) (hdetect ▸ targetTag_injective.ne hne)
  rw [htlen] at hswapped' habove'
  refine ⟨t, u, hthere, hexec, congrArg State.err ht, congrArg State.err hu, congrArg State.order hu, fun a => ?_⟩
  rcases Nat.lt_or_ge a s.len.toNat with ha | ha
  · rw [hswapped' a ha, hswapped _ (xor_one_lt heven ha), Nat.xor_assoc, Nat.xor_self, Nat.xor_zero]
  · rw [habove' a ha, habove a ha]

/-- Settles O21: neither failing path writes BUF, and the two others succeed. -/
theorem failedNormalizeKeepsBuf : Obligations.FailedNormalizeKeepsBuf := by
  intro s t tgt htainted hexec herr
  rcases exec_normalize_cases htainted hexec with ⟨-, rfl⟩ | ⟨-, -, rfl⟩ | ⟨-, -, rfl⟩ | ⟨-, -, -, rfl⟩
  · exact ⟨rfl, State.bufRead_congr rfl rfl⟩
  · exact ⟨rfl, State.bufRead_congr rfl rfl⟩
  · exact absurd rfl herr
  · exact absurd rfl herr

/-- Settles O22: of the four paths only the swap writes BUF, and it writes below LEN. -/
theorem normalizeFrame : Obligations.NormalizeFrame := by
  intro s t tgt htainted hexec
  have hkept : t.buf = s.buf → t.bufDraw = s.bufDraw →
      (∀ a, s.len.toNat ≤ a → t.bufRead a = s.bufRead a) ∧
        (s.detect = .undetermined ∨ s.len.toNat % 2 = 1 ∨ s.detect = targetTag tgt → ∀ a, t.bufRead a = s.bufRead a) :=
    fun hbuf hdraw => ⟨fun a _ => State.bufRead_congr hbuf hdraw a, fun _ => State.bufRead_congr hbuf hdraw⟩
  rcases exec_normalize_cases htainted hexec with
    ⟨-, rfl⟩ | ⟨-, -, rfl⟩ | ⟨-, -, rfl⟩ | ⟨heven, hknown, hother, rfl⟩
  · exact ⟨rfl, hkept rfl rfl⟩
  · exact ⟨rfl, hkept rfl rfl⟩
  · exact ⟨rfl, hkept rfl rfl⟩
  · refine ⟨rfl, fun a ha => (State.bufRead_swappedTo heven a).trans (if_neg (Nat.not_lt.2 ha)), ?_⟩
    rintro (hund | hodd | hcurrent)
    · exact absurd hund hknown
    · exact absurd (heven.symm.trans hodd) Nat.zero_ne_one
    · exact absurd hcurrent hother

end Sys2Proof.Machine

/-!
The checksum engine (42_checksum.md): one word of the recurrence as its sub-steps, the window as a list of words, a run of
zero words, and every completion of CHECKSUM said once; then the statements.
-/
namespace Sys2Proof.Machine

open Sys2Proof.Claims

/-! One word of the recurrence -/

/-- Sub-step (f) compares the numbers (42_checksum.md R110). -/
theorem belowT2_iff (c1 t2 : Word) : belowT2 c1 t2 = true ↔ c1.toNat < t2.toNat :=
  decide_eq_true_iff

/-- Settles O26: sub-step (a) finds the carry, (d) is a rotation and (f) compares the numbers; the others are as written. -/
theorem accStepFollowsSubSteps : Obligations.AccStepFollowsSubSteps := by
  intro a c1
  simp only [accStep, accNext, sumCarried_iff, rotl32_rotateAmount, belowT2_iff]

/-- Sub-step (a) with the increment written as a count (42_checksum.md R105). -/
theorem accStep_t4_toNat (c1 : Word) (a : Acc) :
    (accStep c1 a).t4.toNat =
      (a.t4.toNat + if decide (2 ^ 32 ≤ a.t6.toNat + c1.toNat) = true then 1 else 0) % 2 ^ 32 := by
  rw [accStepFollowsSubSteps, accNext]
  by_cases hcarry : 2 ^ 32 ≤ a.t6.toNat + c1.toNat
  · rw [if_pos hcarry, if_pos (decide_eq_true hcarry)]
    exact BitVec.toNat_add _ _
  · rw [if_neg hcarry, if_neg (hcarry ∘ of_decide_eq_true)]
    exact (Nat.mod_eq_of_lt a.t4.isLt).symm

/-- Settles O27, by induction on the number of words: the last word adds 1 to either side where its sum carries. -/
theorem t4CountsCarries : Obligations.T4CountsCarries := by
  intro s n
  induction n with
  | zero => rfl
  | succ n ih =>
    rw [accLoop_succ, Nat.zero_add, accStep_t4_toNat, ih, List.range_succ, List.countP_append, List.countP_singleton,
      Nat.mod_add_mod, Nat.add_assoc]

/-! The window as a list -/

theorem State.windowWord_eq_ofNat (s : State) (i : Nat) :
    s.windowWord i =
      BitVec.ofNat 32
        ((s.bufRead (0x1000 + 4 * i)).toNat * 2 ^ 24 + (s.bufRead (0x1000 + 4 * i + 1)).toNat * 2 ^ 16 +
          (s.bufRead (0x1000 + 4 * i + 2)).toNat * 2 ^ 8 + (s.bufRead (0x1000 + 4 * i + 3)).toNat) := by
  rw [← bytesBE_toNat, BitVec.ofNat_toNat, BitVec.setWidth_eq]
  rfl

theorem windowWords_eq_map (s : State) : windowWords s = (List.range 0x40000).map s.windowWord :=
  List.map_congr_left fun i _ => (s.windowWord_eq_ofNat i).symm

/-- The model's loop over a whole window is the fold of the recurrence (42_checksum.md R100, R114). -/
theorem State.windowAcc_eq_foldl {s : State} (h : 0x101000 ≤ s.len.toNat) :
    s.windowAcc = (windowWords s).foldl accNext accSeed := by
  have hstep : (fun a c1 => accStep c1 a) = accNext := funext fun a => funext (accStepFollowsSubSteps a)
  rw [State.windowAcc, State.windowCount_eq h, accLoop_foldl, hstep, windowWords_eq_map, List.range_eq_range']
  rfl

/-- Every byte of a window word lies in the window (42_checksum.md R102). -/
theorem windowWords_congr {s u : State} (h : ∀ a, 0x1000 ≤ a → a < 0x101000 → s.bufRead a = u.bufRead a) :
    windowWords s = windowWords u := by
  rw [windowWords_eq_map, windowWords_eq_map]
  refine List.map_congr_left fun i hi => State.bufReadBE32_congr fun j hj => ?_
  have hlt : i < 0x40000 := List.mem_range.1 hi
  have haddr : windowAddress i = 0x1000 + 4 * i := rfl
  exact h _ (by omega) (by omega)

/-- A window in which only the first k words can differ from 0. -/
theorem windowWords_of_zero_tail {s : State} {k n : Nat} (hsize : k + n = 0x40000)
    (h : ∀ i, k ≤ i → i < 0x40000 → s.windowWord i = 0#32) :
    windowWords s = (List.range k).map s.windowWord ++ List.replicate n 0#32 := by
  have htail : ((List.range n).map (k + ·)).map s.windowWord = List.replicate n 0#32 := by
    rw [List.map_map, List.eq_replicate_iff, List.length_map, List.length_range]
    refine ⟨rfl, List.forall_mem_map.2 fun i hi => ?_⟩
    have hlt : i < n := List.mem_range.1 hi
    exact h (k + i) (Nat.le_add_right k i) (by omega)
  rw [windowWords_eq_map, ← hsize, List.range_add, List.map_append, htail]

/-! A run of zero words -/

/-- With t2 above 0 a zero word adds t5 to t1 and changes nothing else (42_checksum.md R104–R111). -/
theorem accNext_zero {a : Acc} (h : a.t2 ≠ 0#32) : accNext a 0#32 = { a with t1 := a.t1 + a.t5 } := by
  have hbelow : (0#32).toNat < a.t2.toNat := Nat.pos_of_ne_zero fun h0 => h (BitVec.eq_of_toNat_eq h0)
  have hcarry : ¬2 ^ 32 ≤ a.t6.toNat + (0#32).toNat := Nat.not_le.2 a.t6.isLt
  rw [accNext, if_pos hbelow, if_neg hcarry]
  simp

theorem foldl_accNext_replicate_zero {a : Acc} (h : a.t2 ≠ 0#32) (n : Nat) :
    (List.replicate n 0#32).foldl accNext a = { a with t1 := a.t1 + BitVec.ofNat 32 n * a.t5 } := by
  induction n generalizing a with
  | zero => simp
  | succ n ih =>
    have hsum : a.t1 + a.t5 + BitVec.ofNat 32 n * a.t5 = a.t1 + BitVec.ofNat 32 (n + 1) * a.t5 := by
      rw [BitVec.ofNat_add, BitVec.add_mul, BitVec.one_mul]
      ac_rfl
    rw [List.replicate_succ, List.foldl_cons, accNext_zero h]
    exact (ih (a := { a with t1 := a.t1 + a.t5 }) h).trans (by rw [hsum])

/-- The pair of some words and a run of zeros after them, from the accumulators that the words leave. -/
theorem checksumPair_append_zeros {ws : List Word} {a : Acc} (ha : ws.foldl accNext accSeed = a) (h : a.t2 ≠ 0#32)
    (n : Nat) :
    checksumPair (ws ++ List.replicate n 0#32) =
      (a.t6 ^^^ a.t4 ^^^ a.t3, a.t5 ^^^ a.t2 ^^^ (a.t1 + BitVec.ofNat 32 n * a.t5)) := by
  rw [checksumPair, List.foldl_append, ha, foldl_accNext_replicate_zero h]

/-- ACC_FINAL (42_checksum.md R113). -/
theorem checksumPair_eq_final (ws : List Word) :
    checksumPair ws = ((ws.foldl accNext accSeed).final1, (ws.foldl accNext accSeed).final2) :=
  rfl

/-! The completion -/

/-- The state that a CHECKSUM which succeeds leaves: the pair of the window, and free accumulators (42_checksum.md R100;
10_state.md R34, R36); `exec_checksum_of_ready` ties it to the model. -/
def State.checksummed (s : State) : State :=
  { s with
    csum1 := (checksumPair (windowWords s)).1, csum2 := (checksumPair (windowWords s)).2, err := .noError
    busy := false, latency := 0
    acc := freeAcc s.draws, widx := (Config.freeWord s.draws 7).setWidth 18, draws := s.draws + 1 }

theorem exec_checksum {s : State} (htainted : s.tainted = false) :
    exec .checksum s = .next { s.checksumRule with busy := false, latency := 0 } :=
  exec_untainted .checksum htainted

theorem exec_checksum_of_ready {s : State} (h : checksumReady s) : exec .checksum s = .next s.checksummed := by
  obtain ⟨htainted, hlen, hreadable⟩ := h
  rw [exec_checksum htainted, State.checksumRule_accepted hlen hreadable, State.checksummed, checksumPair_eq_final,
    ← State.windowAcc_eq_foldl hlen]
  rfl

/-- Settles O23: the first check fails. -/
theorem checksumRefusesShortBuffer : Obligations.ChecksumRefusesShortBuffer := by
  intro s htainted hshort
  rw [exec_checksum htainted, State.checksumRule_short hshort]
  rfl

theorem exec_checksum_of_unreadable {s : State} (htainted : s.tainted = false) (hlen : 0x101000 ≤ s.len.toNat)
    (hfails : ∃ a, 0x1000 ≤ a ∧ a < 0x101000 ∧ s.build.fails a = true) :
    exec .checksum s = .next { s with err := .readError, busy := false, latency := 0 } := by
  rw [exec_checksum htainted, State.checksumRule_unreadable hlen hfails]
  rfl

/-- Everything a CHECKSUM that is not marked can do (42_checksum.md R100, R101, R115). -/
theorem exec_checksum_cases {s t : State} (htainted : s.tainted = false) (h : exec .checksum s = .next t) :
    (s.len.toNat < 0x101000 ∧ t = { s with err := .notLongEnough, busy := false, latency := 0 }) ∨
      ((∃ a, 0x1000 ≤ a ∧ a < 0x101000 ∧ s.build.fails a = true) ∧
        t = { s with err := .readError, busy := false, latency := 0 }) ∨
      (checksumReady s ∧ t = s.checksummed) := by
  rcases Nat.lt_or_ge s.len.toNat 0x101000 with hshort | hlen
  · rw [checksumRefusesShortBuffer s htainted hshort] at h
    cases h
    exact .inl ⟨hshort, rfl⟩
  · by_cases hfails : ∃ a, 0x1000 ≤ a ∧ a < 0x101000 ∧ s.build.fails a = true
    · rw [exec_checksum_of_unreadable htainted hlen hfails] at h
      cases h
      exact .inr (.inl ⟨hfails, rfl⟩)
    · have hready : checksumReady s :=
        ⟨htainted, hlen, fun a hlow hhigh => eq_false_of_ne_true fun hf => hfails ⟨a, hlow, hhigh, hf⟩⟩
      rw [exec_checksum_of_ready hready] at h
      cases h
      exact .inr (.inr ⟨hready, rfl⟩)

/-! The statements about every completion -/

/-- Settles O24: the second check fails, and only it gives code 4. -/
theorem checksumReportsReadError : Obligations.ChecksumReportsReadError := by
  refine ⟨fun s htainted hlen hfails => exec_checksum_of_unreadable htainted hlen hfails, ?_⟩
  intro s t htainted hreadable hexec
  rcases exec_checksum_cases htainted hexec with ⟨-, rfl⟩ | ⟨⟨a, -, -, hfails⟩, -⟩ | ⟨-, rfl⟩
  · exact nofun
  · exact absurd hfails (ne_true_of_eq_false (hreadable a))
  · exact nofun

/-- Settles O25: the model's loop is the fold over the window's words. -/
theorem checksumIsTheRecurrence : Obligations.ChecksumIsTheRecurrence :=
  fun s hready => ⟨s.checksummed, exec_checksum_of_ready hready, rfl, rfl⟩

/-- Settles O29: the two states have the same window words. -/
theorem checksumDependsOnWindowOnly : Obligations.ChecksumDependsOnWindowOnly := by
  intro s u hs hu hbytes
  have hpair : checksumPair (windowWords s) = checksumPair (windowWords u) := by rw [windowWords_congr hbytes]
  exact ⟨s.checksummed, u.checksummed, exec_checksum_of_ready hs, exec_checksum_of_ready hu, congrArg Prod.fst hpair,
    congrArg Prod.snd hpair⟩

/-- A CHECKSUM that completes leaves whatever pair its window has. -/
theorem exec_checksum_of_pair {s : State} (h : checksumReady s) {c1 c2 : Word}
    (hpair : checksumPair (windowWords s) = (c1, c2)) :
    ∃ t, exec .checksum s = .next t ∧ t.csum1 = c1 ∧ t.csum2 = c2 :=
  ⟨s.checksummed, exec_checksum_of_ready h, congrArg Prod.fst hpair, congrArg Prod.snd hpair⟩

/-- Settles O28: 0x40000 zero words leave SEED in t2 to t6 and SEED * 0x40001 in t1. -/
theorem allZeroWindowChecksum : Obligations.AllZeroWindowChecksum := by
  intro s hready hzero
  have hword : ∀ i, 0 ≤ i → i < 0x40000 → s.windowWord i = 0#32 := by
    intro i _ hi
    rw [State.windowWord_eq_ofNat, hzero _ (by omega) (by omega), hzero _ (by omega) (by omega),
      hzero _ (by omega) (by omega), hzero _ (by omega) (by omega)]
    rfl
  apply exec_checksum_of_pair hready
  rw [windowWords_of_zero_tail (Nat.zero_add _) hword, List.range_zero, List.map_nil,
    checksumPair_append_zeros (a := accSeed) rfl (by decide)]
  decide

/-- A window that holds v and w and then zeros, from the accumulators that v and w leave. -/
theorem checksumPair_windowWords_of_two {s : State} {v w : Word} {a : Acc} (ha : [v, w].foldl accNext accSeed = a)
    (ht2 : a.t2 ≠ 0#32) (hzero : ∀ i, 2 ≤ i → i < 0x40000 → s.windowWord i = 0#32) (h0 : s.windowWord 0 = v)
    (h1 : s.windowWord 1 = w) :
    checksumPair (windowWords s) =
      (a.t6 ^^^ a.t4 ^^^ a.t3, a.t5 ^^^ a.t2 ^^^ (a.t1 + BitVec.ofNat 32 0x3FFFE * a.t5)) := by
  have hfirst : (List.range 2).map s.windowWord = [v, w] := by
    rw [← h0, ← h1]
    rfl
  rw [windowWords_of_zero_tail (show 2 + 0x3FFFE = 0x40000 from rfl) hzero, hfirst, checksumPair_append_zeros ha ht2]

/-- Settles O30: after the two words, 0x3FFFE zero words add t5 to t1 each. -/
theorem wordOrderMatters : Obligations.WordOrderMatters := by
  intro s hready hzero
  refine ⟨fun h0 h1 => exec_checksum_of_pair hready ?_, fun h0 h1 => exec_checksum_of_pair hready ?_⟩
  · rw [checksumPair_windowWords_of_two rfl (by decide) hzero h0 h1]
    decide
  · rw [checksumPair_windowWords_of_two rfl (by decide) hzero h0 h1]
    decide

/-! The commands that store nothing -/

theorem exec_frame {i : Instr} {s t : State} (h : exec i s = .next t) : s.CommandFrame t := by
  rw [exec_eq_completion, completion_eq_decodedNext] at h
  cases h
  exact decodedNext_frame _ s

/-- Settles O31: beside the frame of all commands, no path of DETECT or CHECKSUM writes BUF, and only the CHECKSUM that
succeeds writes the pair and the accumulators. -/
theorem storelessFrame : Obligations.StorelessFrame := by
  intro i s t hi htainted hexec
  obtain ⟨hlen, hlost, hcmdl, hfault, hbuild, hevents, hvars⟩ := exec_frame hexec
  refine ⟨hlen, hlost, hcmdl, hfault, hbuild, hevents, hvars, ?_⟩
  rcases hi with rfl | rfl
  · obtain ⟨-, hdetect⟩ := detectCompletes
    rw [hdetect s htainted] at hexec
    cases hexec
    exact ⟨rfl, State.bufRead_congr rfl rfl, nofun, fun _ => ⟨rfl, rfl, rfl, rfl⟩⟩
  · rcases exec_checksum_cases htainted hexec with ⟨-, rfl⟩ | ⟨-, rfl⟩ | ⟨-, rfl⟩
    · exact ⟨rfl, State.bufRead_congr rfl rfl, fun _ => rfl, fun _ => ⟨rfl, rfl, rfl, rfl⟩⟩
    · exact ⟨rfl, State.bufRead_congr rfl rfl, fun _ => rfl, fun _ => ⟨rfl, rfl, rfl, rfl⟩⟩
    · exact ⟨rfl, State.bufRead_congr rfl rfl, fun _ => rfl, fun h => absurd rfl (h.resolve_left nofun)⟩

end Sys2Proof.Machine

/-!
Exceptions (60_exceptions.md): the codes that a command can end with, marked or not, and the code of each rule as a function of
LEN, the detector's result and READ_FAIL; then the statements.
-/
namespace Sys2Proof.Machine

/-! The codes a command can end with (60_exceptions.md R124) -/

/-- The code is one of those that the command can end with, as its `Outcomes` list them. -/
def Outcomes.Allows (o : Outcomes) (code : ErrCode) : Prop := code = o.err0 ∨ code = o.err1 ∨ code = o.err2

theorem Outcomes.allows_pickErr (o : Outcomes) (free : Word) : o.Allows (o.pickErr free) := by
  unfold Outcomes.pickErr
  split
  · exact .inl rfl
  · exact .inr (.inl rfl)
  · exact .inr (.inr rfl)

/-- The end of a command keeps the code of its rule or, where HOST changed an input, picks one that the command can end
with (70_reset_and_hazards.md R148). -/
theorem State.allows_endCommand_err {o : Outcomes} {s : State} (h : o.Allows s.err) : o.Allows (s.endCommand o).err := by
  cases htainted : s.tainted with
  | false =>
    rw [State.endCommand_untainted o htainted]
    exact h
  | true =>
    obtain ⟨-, -, -, herr, -⟩ := State.endCommand_tainted_results o htainted
    rw [herr]
    exact o.allows_pickErr _

/-- NORMALIZE makes its two checks in this order (41_normalizer.md R92). -/
theorem State.normalizeRule_err (s : State) (tgt : Target) :
    (s.normalizeRule tgt).err =
      if s.detect = .undetermined then .unknownOrdering else if s.len.getLsbD 0 then .oddLength else .noError := by
  unfold State.normalizeRule
  simp only [apply_ite State.err, State.raiseErr_err, State.complete_err, ite_self]

/-- CHECKSUM makes its two checks in this order (42_checksum.md R101, R115). -/
theorem State.checksumRule_err (s : State) :
    s.checksumRule.err =
      if s.len.toNat < Config.minCsumLen then .notLongEnough
      else if Build.windowFails s.build then .readError else .noError := by
  unfold State.checksumRule
  simp only [apply_ite State.err, State.raiseErr_err, State.complete_err]

theorem allows_decodedRule_err (d : Decoded) (s : State) : (decodedOutcomes d).Allows (decodedRule d s).err := by
  match d with
  | .legal .detect => exact .inl rfl
  | .legal (.normalize tgt) =>
    rw [decodedRule, State.normalizeRule_err]
    split
    · exact .inr (.inl rfl)
    · split
      · exact .inr (.inr rfl)
      · exact .inl rfl
  | .legal .checksum =>
    rw [decodedRule, State.checksumRule_err]
    split
    · exact .inr (.inl rfl)
    · split
      · exact .inr (.inr rfl)
      · exact .inl rfl
  | .illegal _ => exact .inl rfl

theorem allows_decodedNext_err (d : Decoded) (s : State) : (decodedOutcomes d).Allows (decodedNext d s).err :=
  State.allows_endCommand_err (allows_decodedRule_err d s)

theorem allows_exec_err {i : Instr} {s t : State} (h : exec i s = .next t) : (decodedOutcomes (.legal i)).Allows t.err := by
  rw [exec_eq_completion, completion_eq_decodedNext] at h
  cases h
  exact allows_decodedNext_err _ s

/-- DETECT and an illegal word have one code each. -/
theorem Outcomes.eq_of_allows {o : Outcomes} {code only : ErrCode} (h : o.Allows code) (h0 : o.err0 = only)
    (h1 : o.err1 = only) (h2 : o.err2 = only) : code = only := by
  rcases h with h | h | h
  · exact h.trans h0
  · exact h.trans h1
  · exact h.trans h2

/-! What a rule's code depends on (60_exceptions.md R132) -/

theorem Build.windowFails_congr {b c : Build} (h : b.readFail = c.readFail) :
    Build.windowFails b = Build.windowFails c := by
  rw [Build.windowFails, Build.windowFails, h]

theorem decodedRule_err_congr {s u : State} (d : Decoded) (hlen : s.len = u.len)
    (hfail : s.build.readFail = u.build.readFail) (hread : ∀ a, s.bufRead a = u.bufRead a) :
    (decodedRule d s).err = (decodedRule d u).err := by
  match d with
  | .legal .detect => rfl
  | .legal (.normalize tgt) =>
    have hdetect : s.detect = u.detect := detectorReadsMagicOnly s u hlen fun a _ => hread a
    rw [decodedRule, decodedRule, State.normalizeRule_err, State.normalizeRule_err, hdetect, hlen]
  | .legal .checksum =>
    rw [decodedRule, decodedRule, State.checksumRule_err, State.checksumRule_err, Build.windowFails_congr hfail, hlen]
  | .illegal _ => rfl

/-! The statements -/

/-- Settles O33: each command ends with a code that its `Outcomes` list, and of the steps that complete nothing only an
accept and reset write ERR. -/
theorem codesByCommand : Obligations.CodesByCommand := by
  refine fun s t => ⟨fun hexec => Outcomes.eq_of_allows (allows_exec_err hexec) rfl rfl rfl,
    fun tgt hexec => allows_exec_err hexec, fun hexec => allows_exec_err hexec, fun why hd hengine => ?_, fun hstep => ?_⟩
  · rw [engineStep_eq, engineNext_eq_decodedNext, hd] at hengine
    cases hengine
    exact Outcomes.eq_of_allows (allows_decodedNext_err _ s) rfl rfl rfl
  · rcases step_kinds hstep with ⟨hturn, -⟩ | ⟨hturn, ⟨-, rfl⟩ | ⟨rest, he, rfl⟩ | ⟨e, rest, hreset, he, rfl⟩⟩
    · exact .inr (.inl hturn)
    · exact .inl rfl
    · exact .inr (.inr (.inr ⟨rfl, hturn, rest, he⟩))
    · rcases runEvent_err hreset (Claims.taken s rest) with hkept | ⟨hcleared, hidle, v, rfl⟩
      · exact .inl hkept
      · exact .inr (.inr (.inl ⟨hcleared, hidle, v, rest, he⟩))

/-- Settles O34: a command that is not marked ends with the code of its rule, which reads LEN, the detector's result and
READ_FAIL alone. -/
theorem errorsAreDeterministic : Obligations.ErrorsAreDeterministic :=
  fun i _ _ hs hu hlen hfail hread =>
    ⟨_, _, exec_untainted i hs, exec_untainted i hu, decodedRule_err_congr (.legal i) hlen hfail hread⟩

end Sys2Proof.Machine

/-!
Reset and hazards (70_reset_and_hazards.md): what HOST's accesses to the inputs of a running command do, and the byte draw of
the reset input; then the statements.
-/
namespace Sys2Proof.Machine

open Sys2Proof.Claims

/-! HOST's accesses to the inputs of a running command (70_reset_and_hazards.md R148) -/

theorem State.hostWrb_busy {s : State} {a : Word} (hbusy : s.busy = true) (ha : a.toNat < s.build.bufCap) (v : ByteVal) :
    s.hostWrb a v = (s.bufWrite a.toNat (v.eval s)).taint := by
  simp [State.hostWrb, State.bufAddressOk_of_lt ha, hbusy]

theorem State.hostRdb_busy {s : State} {a : Word} (hbusy : s.busy = true) (ha : a.toNat < s.build.bufCap) (x : Nat) :
    s.hostRdb a x = s.nextDraw.setVar x ((Config.freeByte s.draws a.toNat).setWidth 32) := by
  simp [State.hostRdb, State.bufAddressOk_of_lt ha, hbusy]

theorem State.regWrite_len_busy {s : State} (hbusy : s.busy = true) (v : Word) :
    s.regWrite offLen v = (s.setLen v).taint :=
  have hwrite : s.regWrite offLen v = s.writeLen v := rfl
  hwrite.trans (if_pos hbusy)

/-! The reset input (70_reset_and_hazards.md R142) -/

/-- The reset input draws three times: for CMDL, for the accumulators, and last for BUF. -/
theorem State.bufRead_resetInput (s : State) (a : Nat) :
    s.resetInput.bufRead a = Config.freeByte (s.draws + 2) a :=
  State.bufRead_forgetBuf _ a

theorem State.resetInput_draws (s : State) : s.resetInput.draws = s.draws + 3 := rfl

/-! The statements -/

/-- Settles O47: a byte write and a LEN write mark the running command, a byte read only uses up a draw, and a marked command
ends with free results. -/
theorem inputChangesWhileBusy : Obligations.InputChangesWhileBusy := by
  refine ⟨fun s a v rest hbusy ha h => ?_, fun s v rest hbusy h => ?_, fun s a x rest hbusy ha h => ?_,
    fun s => resultsFree_of_tainted⟩
  · have hwrb := State.hostWrb_busy (s := taken s rest) hbusy ha v
    exact ⟨_, (step_hostNext h).trans (congrArg _ hwrb), rfl⟩
  · have hwr := State.regWrite_len_busy (s := taken s rest) hbusy (v.eval s)
    exact ⟨_, (step_wr h (by decide)).trans (congrArg _ hwr), rfl⟩
  · have hrdb := State.hostRdb_busy (s := taken s rest) hbusy ha x
    exact ⟨_, (step_hostNext h).trans (congrArg _ hrdb), readInto_setVar rfl .., rfl⟩

/-- Settles O49: the reset input is HOST's step whatever the block was doing, and BUF's draw is the last of its three. -/
theorem resetInputSetsState : Obligations.ResetInputSetsState := by
  intro s rest h
  obtain ⟨hbusy, hlost, herr, horder, hlen, hcsum1, hcsum2, -, hfault, hbuild, hevents, hvars, htainted, -⟩ :=
    (taken s rest).resetInput_given
  have hdraws : s.draws + 2 < (taken s rest).resetInput.draws := by
    rw [State.resetInput_draws]
    exact Nat.lt_succ_self _
  exact ⟨_, s.draws + 2, step_hostNext h, hbusy, hlost, herr, horder, hlen, hcsum1, hcsum2, hfault, hbuild, hevents, hvars,
    htainted, Nat.le_add_right .., hdraws, (taken s rest).bufRead_resetInput⟩

end Sys2Proof.Machine
